-- ==== Sys2Proof/Word.lean ====
section
/-! DEFINITION. The word types of the machine (spec 00_scope.md R5, R6; 30_encoding.md R51). -/

namespace Sys2Proof

/-- One byte: the width of a V register, a timer and a memory cell (R10, R16, R19). -/
abbrev Byte := BitVec 8

/-- Sixteen bits: an instruction word, I, pc, one stack entry (R12, R13, R14, R50). -/
abbrev Word := BitVec 16

/-- The 4-bit index of a V register, a field `x` or `y` of an instruction word (R10, R51). -/
abbrev RegIdx := BitVec 4

/-- The 4-bit field `n` (R51). -/
abbrev Nibble := BitVec 4

/-- The 12-bit field `nnn` (R51). -/
abbrev Addr12 := BitVec 12

end Sys2Proof
end

