-- ==== Sys2Proof/Syntax.lean ====
section
/-! DEFINITION. The 34 instructions (spec 30_encoding.md R57, opcode_table.json), one constructor a row. -/

namespace Sys2Proof

/-- An instruction with its operand fields, each of exactly the width the word gives it (R51), so
that no term stands for an operand out of range (R10: indices are "in [0,16) by construction"). -/
inductive Instr where
  /-- 00E0 -/
  | cls
  /-- 00EE -/
  | ret
  /-- 1nnn -/
  | jp (nnn : Addr12)
  /-- 2nnn -/
  | call (nnn : Addr12)
  /-- 3xnn -/
  | seImm (x : RegIdx) (nn : Byte)
  /-- 4xnn -/
  | sneImm (x : RegIdx) (nn : Byte)
  /-- 5xy0 -/
  | seReg (x y : RegIdx)
  /-- 6xnn -/
  | ldImm (x : RegIdx) (nn : Byte)
  /-- 7xnn -/
  | addImm (x : RegIdx) (nn : Byte)
  /-- 8xy0 -/
  | ldReg (x y : RegIdx)
  /-- 8xy1 -/
  | orReg (x y : RegIdx)
  /-- 8xy2 -/
  | andReg (x y : RegIdx)
  /-- 8xy3 -/
  | xorReg (x y : RegIdx)
  /-- 8xy4 -/
  | addReg (x y : RegIdx)
  /-- 8xy5 -/
  | subReg (x y : RegIdx)
  /-- 8xy6 -/
  | shr (x y : RegIdx)
  /-- 8xy7 -/
  | subnReg (x y : RegIdx)
  /-- 8xyE -/
  | shl (x y : RegIdx)
  /-- 9xy0 -/
  | sneReg (x y : RegIdx)
  /-- Annn -/
  | ldI (nnn : Addr12)
  /-- Bnnn -/
  | jpV0 (nnn : Addr12)
  /-- Cxnn -/
  | rnd (x : RegIdx) (nn : Byte)
  /-- Dxyn -/
  | drw (x y : RegIdx) (n : Nibble)
  /-- Ex9E -/
  | skp (x : RegIdx)
  /-- ExA1 -/
  | sknp (x : RegIdx)
  /-- Fx07 -/
  | ldVxDt (x : RegIdx)
  /-- Fx0A -/
  | ldVxK (x : RegIdx)
  /-- Fx15 -/
  | ldDtVx (x : RegIdx)
  /-- Fx18 -/
  | ldStVx (x : RegIdx)
  /-- Fx1E -/
  | addIVx (x : RegIdx)
  /-- Fx29 -/
  | ldFVx (x : RegIdx)
  /-- Fx33 -/
  | ldBVx (x : RegIdx)
  /-- Fx55 -/
  | ldMemVx (x : RegIdx)
  /-- Fx65 -/
  | ldVxMem (x : RegIdx)
  deriving DecidableEq, Repr

/-- The instruction's identifier in opcode_table.json (R57). -/
def Instr.mnemonic : Instr → String
  | .cls => "CLS"
  | .ret => "RET"
  | .jp _ => "JP_nnn"
  | .call _ => "CALL_nnn"
  | .seImm _ _ => "SE_Vx_nn"
  | .sneImm _ _ => "SNE_Vx_nn"
  | .seReg _ _ => "SE_Vx_Vy"
  | .ldImm _ _ => "LD_Vx_nn"
  | .addImm _ _ => "ADD_Vx_nn"
  | .ldReg _ _ => "LD_Vx_Vy"
  | .orReg _ _ => "OR_Vx_Vy"
  | .andReg _ _ => "AND_Vx_Vy"
  | .xorReg _ _ => "XOR_Vx_Vy"
  | .addReg _ _ => "ADD_Vx_Vy"
  | .subReg _ _ => "SUB_Vx_Vy"
  | .shr _ _ => "SHR_Vx_Vy"
  | .subnReg _ _ => "SUBN_Vx_Vy"
  | .shl _ _ => "SHL_Vx_Vy"
  | .sneReg _ _ => "SNE_Vx_Vy"
  | .ldI _ => "LD_I_nnn"
  | .jpV0 _ => "JP_V0_nnn"
  | .rnd _ _ => "RND_Vx_nn"
  | .drw _ _ _ => "DRW_Vx_Vy_n"
  | .skp _ => "SKP_Vx"
  | .sknp _ => "SKNP_Vx"
  | .ldVxDt _ => "LD_Vx_DT"
  | .ldVxK _ => "LD_Vx_K"
  | .ldDtVx _ => "LD_DT_Vx"
  | .ldStVx _ => "LD_ST_Vx"
  | .addIVx _ => "ADD_I_Vx"
  | .ldFVx _ => "LD_F_Vx"
  | .ldBVx _ => "LD_B_Vx"
  | .ldMemVx _ => "LD_mI_Vx"
  | .ldVxMem _ => "LD_Vx_mI"

end Sys2Proof
end

