-- ==== Sys2Proof/WellFormed.lean ====
section
/-! DEFINITION. Which words are instructions: the opcode map as (mask, match) pairs (spec 30_encoding.md
R52, R57, R58). The fields of `Instr` have exactly the encoding's widths (R51), so every term of `Instr` is
well formed; what can be ill formed is a word, and `wordLegal` is the check. -/

namespace Sys2Proof

/-- One row of the opcode map (R57). -/
structure OpRow where
  mnemonic : String
  mask : Word
  pattern : Word
  deriving DecidableEq, Repr

/-- Rows 1 to 10 of R57. -/
def opcodeMapLow : List OpRow :=
  [ ⟨"CLS", 0xFFFF, 0x00E0⟩,
    ⟨"RET", 0xFFFF, 0x00EE⟩,
    ⟨"JP_nnn", 0xF000, 0x1000⟩,
    ⟨"CALL_nnn", 0xF000, 0x2000⟩,
    ⟨"SE_Vx_nn", 0xF000, 0x3000⟩,
    ⟨"SNE_Vx_nn", 0xF000, 0x4000⟩,
    ⟨"SE_Vx_Vy", 0xF00F, 0x5000⟩,
    ⟨"LD_Vx_nn", 0xF000, 0x6000⟩,
    ⟨"ADD_Vx_nn", 0xF000, 0x7000⟩,
    ⟨"LD_Vx_Vy", 0xF00F, 0x8000⟩ ]

/-- Rows 11 to 19 of R57. -/
def opcodeMapFamily8 : List OpRow :=
  [ ⟨"OR_Vx_Vy", 0xF00F, 0x8001⟩,
    ⟨"AND_Vx_Vy", 0xF00F, 0x8002⟩,
    ⟨"XOR_Vx_Vy", 0xF00F, 0x8003⟩,
    ⟨"ADD_Vx_Vy", 0xF00F, 0x8004⟩,
    ⟨"SUB_Vx_Vy", 0xF00F, 0x8005⟩,
    ⟨"SHR_Vx_Vy", 0xF00F, 0x8006⟩,
    ⟨"SUBN_Vx_Vy", 0xF00F, 0x8007⟩,
    ⟨"SHL_Vx_Vy", 0xF00F, 0x800E⟩,
    ⟨"SNE_Vx_Vy", 0xF00F, 0x9000⟩ ]

/-- Rows 20 to 34 of R57. -/
def opcodeMapHigh : List OpRow :=
  [ ⟨"LD_I_nnn", 0xF000, 0xA000⟩,
    ⟨"JP_V0_nnn", 0xF000, 0xB000⟩,
    ⟨"RND_Vx_nn", 0xF000, 0xC000⟩,
    ⟨"DRW_Vx_Vy_n", 0xF000, 0xD000⟩,
    ⟨"SKP_Vx", 0xF0FF, 0xE09E⟩,
    ⟨"SKNP_Vx", 0xF0FF, 0xE0A1⟩,
    ⟨"LD_Vx_DT", 0xF0FF, 0xF007⟩,
    ⟨"LD_Vx_K", 0xF0FF, 0xF00A⟩,
    ⟨"LD_DT_Vx", 0xF0FF, 0xF015⟩,
    ⟨"LD_ST_Vx", 0xF0FF, 0xF018⟩,
    ⟨"ADD_I_Vx", 0xF0FF, 0xF01E⟩,
    ⟨"LD_F_Vx", 0xF0FF, 0xF029⟩,
    ⟨"LD_B_Vx", 0xF0FF, 0xF033⟩,
    ⟨"LD_mI_Vx", 0xF0FF, 0xF055⟩,
    ⟨"LD_Vx_mI", 0xF0FF, 0xF065⟩ ]

/-- The complete map, 34 rows in the order of R57. -/
def opcodeMap : List OpRow :=
  opcodeMapLow ++ opcodeMapFamily8 ++ opcodeMapHigh

/-- A word is the instruction of a row exactly when `w & mask = match` (R52). -/
def OpRow.fits (r : OpRow) (w : Word) : Bool :=
  w &&& r.mask == r.pattern

/-- A word is well formed when it fits some row; every other word is illegal (R57, R58). -/
def wordLegal (w : Word) : Bool :=
  opcodeMap.any fun r => r.fits w

end Sys2Proof
end

