-- ==== Sys2Proof/Decode.lean ====
section
/-! DEFINITION. Decoding (spec 30_encoding.md R50, R51, R54, R55, R58), total on any bytes and rejecting by
name; after it the encoder, written from the formats and patterns of R52 and R57. -/

namespace Sys2Proof

/-- `fam = op[15:12]` (R51). -/
def fieldFam (w : Word) : Nibble := w.extractLsb' 12 4

/-- `x = op[11:8]` (R51). -/
def fieldX (w : Word) : RegIdx := w.extractLsb' 8 4

/-- `y = op[7:4]` (R51). -/
def fieldY (w : Word) : RegIdx := w.extractLsb' 4 4

/-- `n = op[3:0]` (R51). -/
def fieldN (w : Word) : Nibble := w.extractLsb' 0 4

/-- `nn = op[7:0]` (R51). -/
def fieldNN (w : Word) : Byte := w.extractLsb' 0 8

/-- `nnn = op[11:0]` (R51). -/
def fieldNNN (w : Word) : Addr12 := w.extractLsb' 0 12

/-- Family 8, by its sub-opcode `n` (R55). -/
def decodeFamily8 (x y : RegIdx) (n : Nibble) : Option Instr :=
  match n.toNat with
  | 0x0 => some (.ldReg x y)
  | 0x1 => some (.orReg x y)
  | 0x2 => some (.andReg x y)
  | 0x3 => some (.xorReg x y)
  | 0x4 => some (.addReg x y)
  | 0x5 => some (.subReg x y)
  | 0x6 => some (.shr x y)
  | 0x7 => some (.subnReg x y)
  | 0xE => some (.shl x y)
  | _ => none

/-- Family E, by its sub-opcode `nn` (R55). -/
def decodeFamilyE (x : RegIdx) (nn : Byte) : Option Instr :=
  match nn.toNat with
  | 0x9E => some (.skp x)
  | 0xA1 => some (.sknp x)
  | _ => none

/-- Family F, by its sub-opcode `nn` (R55). -/
def decodeFamilyF (x : RegIdx) (nn : Byte) : Option Instr :=
  match nn.toNat with
  | 0x07 => some (.ldVxDt x)
  | 0x0A => some (.ldVxK x)
  | 0x15 => some (.ldDtVx x)
  | 0x18 => some (.ldStVx x)
  | 0x1E => some (.addIVx x)
  | 0x29 => some (.ldFVx x)
  | 0x33 => some (.ldBVx x)
  | 0x55 => some (.ldMemVx x)
  | 0x65 => some (.ldVxMem x)
  | _ => none

/-- The decision tree of R55; `none` is an illegal word (R58). -/
def decodeWord (w : Word) : Option Instr :=
  match (fieldFam w).toNat with
  | 0x0 => if w = 0x00E0 then some .cls else if w = 0x00EE then some .ret else none
  | 0x1 => some (.jp (fieldNNN w))
  | 0x2 => some (.call (fieldNNN w))
  | 0x3 => some (.seImm (fieldX w) (fieldNN w))
  | 0x4 => some (.sneImm (fieldX w) (fieldNN w))
  | 0x5 => if fieldN w = 0 then some (.seReg (fieldX w) (fieldY w)) else none
  | 0x6 => some (.ldImm (fieldX w) (fieldNN w))
  | 0x7 => some (.addImm (fieldX w) (fieldNN w))
  | 0x8 => decodeFamily8 (fieldX w) (fieldY w) (fieldN w)
  | 0x9 => if fieldN w = 0 then some (.sneReg (fieldX w) (fieldY w)) else none
  | 0xA => some (.ldI (fieldNNN w))
  | 0xB => some (.jpV0 (fieldNNN w))
  | 0xC => some (.rnd (fieldX w) (fieldNN w))
  | 0xD => some (.drw (fieldX w) (fieldY w) (fieldN w))
  | 0xE => decodeFamilyE (fieldX w) (fieldNN w)
  | 0xF => decodeFamilyF (fieldX w) (fieldNN w)
  | _ => none

/-- Why a byte stream holds no instruction at its front. -/
inductive DecodeReject where
  /-- Fewer than two bytes are left (R50). -/
  | truncated
  /-- The word fits no row of the opcode map (R58, R122). -/
  | unimplementedOpcode (op : Word)
  deriving DecidableEq, Repr

/-- Two bytes as a word, the byte at the lower address most significant (R32). -/
def joinBytes (hi lo : Byte) : Word := hi ++ lo

/-- The byte of a word that lies at the lower address (R32). -/
def highByte (w : Word) : Byte := w.extractLsb' 8 8

/-- The byte of a word that lies at the higher address (R32). -/
def lowByte (w : Word) : Byte := w.extractLsb' 0 8

/-- Decodes the instruction at the front of a byte stream and answers the bytes after it (R32, R50). -/
def decode : List Byte → Except DecodeReject (Instr × List Byte)
  | hi :: lo :: rest =>
    match decodeWord (joinBytes hi lo) with
    | some i => .ok (i, rest)
    | none => .error (.unimplementedOpcode (joinBytes hi lo))
  | _ => .error .truncated

/-- Format NNN (R52): `fam`, `nnn`. -/
def formatNNN (fam : Nibble) (nnn : Addr12) : Word := fam ++ nnn

/-- Format XNN (R52): `fam`, `x`, `nn`; with a fixed `nn` also format X. -/
def formatXNN (fam : Nibble) (x : RegIdx) (nn : Byte) : Word := (fam ++ x) ++ nn

/-- Format XYN (R52): `fam`, `x`, `y`, `n`; with a fixed `n` also format XY. -/
def formatXYN (fam : Nibble) (x y : RegIdx) (n : Nibble) : Word := (fam ++ x) ++ (y ++ n)

/-- The word of an instruction (R52, R57). -/
def encode : Instr → Word
  | .cls => 0x00E0
  | .ret => 0x00EE
  | .jp nnn => formatNNN 0x1 nnn
  | .call nnn => formatNNN 0x2 nnn
  | .seImm x nn => formatXNN 0x3 x nn
  | .sneImm x nn => formatXNN 0x4 x nn
  | .seReg x y => formatXYN 0x5 x y 0x0
  | .ldImm x nn => formatXNN 0x6 x nn
  | .addImm x nn => formatXNN 0x7 x nn
  | .ldReg x y => formatXYN 0x8 x y 0x0
  | .orReg x y => formatXYN 0x8 x y 0x1
  | .andReg x y => formatXYN 0x8 x y 0x2
  | .xorReg x y => formatXYN 0x8 x y 0x3
  | .addReg x y => formatXYN 0x8 x y 0x4
  | .subReg x y => formatXYN 0x8 x y 0x5
  | .shr x y => formatXYN 0x8 x y 0x6
  | .subnReg x y => formatXYN 0x8 x y 0x7
  | .shl x y => formatXYN 0x8 x y 0xE
  | .sneReg x y => formatXYN 0x9 x y 0x0
  | .ldI nnn => formatNNN 0xA nnn
  | .jpV0 nnn => formatNNN 0xB nnn
  | .rnd x nn => formatXNN 0xC x nn
  | .drw x y n => formatXYN 0xD x y n
  | .skp x => formatXNN 0xE x 0x9E
  | .sknp x => formatXNN 0xE x 0xA1
  | .ldVxDt x => formatXNN 0xF x 0x07
  | .ldVxK x => formatXNN 0xF x 0x0A
  | .ldDtVx x => formatXNN 0xF x 0x15
  | .ldStVx x => formatXNN 0xF x 0x18
  | .addIVx x => formatXNN 0xF x 0x1E
  | .ldFVx x => formatXNN 0xF x 0x29
  | .ldBVx x => formatXNN 0xF x 0x33
  | .ldMemVx x => formatXNN 0xF x 0x55
  | .ldVxMem x => formatXNN 0xF x 0x65

/-- The two bytes of an instruction as memory holds them (R32, R50). -/
def encodeBytes (i : Instr) : List Byte :=
  [highByte (encode i), lowByte (encode i)]

/-- The word whose bits opcode_table.json numbers as `w`, of which the row gives `nbits`: bit 0 is the
least significant bit of the first (and only) word. -/
def tableWord (nbits w : Nat) : Word := BitVec.ofNat 16 (w % 2 ^ nbits)

/-- The instruction the decoder reads from a table word, laid out in memory order. -/
def decodeTableWord (nbits w : Nat) : Option Instr :=
  match decode [highByte (tableWord nbits w), lowByte (tableWord nbits w)] with
  | .ok (i, _) => some i
  | .error _ => none

end Sys2Proof
end

