-- ==== Sys2Proof/Config.lean ====
section
/-! DEFINITION. What this hardware fixes (spec 00_scope.md R5) and the values it leaves free
(00_scope.md R8; 10_state.md R21, R22; 60_exceptions.md R134; 93_implementation_defined.md U9, U12). -/

namespace Sys2Proof

/-- `MEM_SIZE` (R5, R30). -/
abbrev Config.memSize : Nat := 4096

/-- `ENTRY`: pc after reset and the load address of the image (R5, R13). -/
abbrev Config.entry : Word := 0x0200

/-- `IMAGE_MAX` (R5, R151). -/
abbrev Config.imageMax : Nat := 3584

/-- `FONT_SIZE`: the font table occupies 0x000..0x04F (R5, R31). -/
abbrev Config.fontSize : Nat := 80

/-- `MAX_NEST`: 2nnn faults at this value of sp (R5, R15, D5). -/
abbrev Config.maxNest : Nat := 15

/-- The values of parameter `SHIFT_SRC` (R5, R94, D16). -/
inductive ShiftSrc where
  | vy
  | vx
  deriving DecidableEq, Repr

/-- `SHIFT_SRC`: this hardware shifts V[y] into V[x] (R5, R94, R96, D16). -/
abbrev Config.shiftSrc : ShiftSrc := .vy

/-- The values of parameter `LOGIC_VF` (R5, R89, D15). -/
inductive LogicVf where
  | unchanged
  | cleared
  deriving DecidableEq, Repr

/-- `LOGIC_VF`: 8xy1, 8xy2, 8xy3 leave VF alone on this hardware (R5, R89, D15). -/
abbrev Config.logicVf : LogicVf := .unchanged

/-- The transactions of the host and of the timer source (R8): each whole, never overlapping. -/
inductive Transaction where
  /-- One instruction cycle with its two inputs (R54). -/
  | step (keys : BitVec 16) (rnd : Byte)
  /-- One decrement of the timers (R134). -/
  | tick
  /-- R150. -/
  | reset
  /-- R151. -/
  | load (image : List Byte)
  deriving DecidableEq, Repr, Inhabited

/-- The `k`-th transaction that nothing has fixed, a Step with its inputs among them: which agent acts next is open
("any interleaving of whole transactions is allowed", R8; "a model must quantify over all interleavings", R134; U12).
A FREE VALUE: it has no body, so nothing can be proved of its value (log entries 2, 3). -/
opaque Config.freeTransaction : Nat → Transaction

/-- The key vector of a Step that `State.withFetchWord` puts in front (R21: "it is whatever the host supplies").
A FREE VALUE: it has no body, so nothing can be proved of its value (log entries 3, 9). -/
opaque Config.freeKeys : Nat → BitVec 16

/-- The random byte of a Step that `State.withFetchWord` puts in front (R22, R97, U9: "any value").
A FREE VALUE: it has no body, so nothing can be proved of its value (log entries 3, 9). -/
opaque Config.freeRnd : Nat → Byte

end Sys2Proof
end

