-- ==== Sys2Proof/Machine/State.lean ====
section
/-! DEFINITION. The machine's state as plain data, the reasons a step can stop, and the state after reset
(spec 10_state.md R10 to R28, 70_reset_and_hazards.md R150). -/

namespace Sys2Proof.Machine

/-- The run state (R20): 0 RUNNING, 1 FAULTED. -/
inductive RunState where
  | running
  | faulted
  deriving DecidableEq, Repr

/-- What `fault_cause` records (R20, R121 to R126). -/
inductive FaultCause where
  | none
  | pcOutOfBounds
  | unimplementedOpcode
  | stackOverflow
  | stackUnderflow
  | memOutOfBounds
  | keyIndexOutOfRange
  deriving DecidableEq, Repr

/-- Memory as the list of the bytes that differ from the reset contents, by strictly rising address
(R19, R30; canonical form in `Memory.wf`). -/
abbrev Memory := List Host.Cell

/-- The framebuffer: 32 rows, counted from the top, of 64 one-bit cells, counted from the left (R18). -/
abbrev Frame := Vector (Vector Bool 64) 32

/-- The complete machine state. The last four fields are the MODEL'S OWN: the inputs of the Step in
progress, and which transactions come next (log entries 1, 2, 3). -/
structure State where
  /-- V[0]..V[15] (R10); VF is V[15] (R11). -/
  v : Vector Byte 16
  /-- The index register I (R12). -/
  i : Word
  /-- The program counter, unmasked (R13). -/
  pc : Word
  /-- The return stack (R14). -/
  stack : Vector Word 16
  /-- The number of live stack entries (R15). -/
  sp : BitVec 4
  /-- The delay timer DT (R16). -/
  dt : Byte
  /-- The sound timer ST (R17). -/
  st : Byte
  /-- The framebuffer FB (R18). -/
  fb : Frame
  /-- Main memory (R19). -/
  mem : Memory
  /-- `run` (R20). -/
  run : RunState
  /-- `fault_cause` (R20). -/
  faultCause : FaultCause
  /-- `fault_info` (R20). -/
  faultInfo : Word
  /-- The key vector sampled for the Step in progress, bit `k` = key `k` down (R21). -/
  keys : BitVec 16
  /-- The random byte sampled for the Step in progress (R22). -/
  rnd : Byte
  /-- The transactions already fixed, next first (R8, R134). -/
  schedule : List Transaction
  /-- How many transactions were drawn freely (log entry 3). -/
  draws : Nat
  deriving DecidableEq, Repr

/-- The machine stops with a fault: NEVER, so the type has no constructor. Each of the six faults of the
spec is the entry into the FAULTED run state (R120), which is a next state (log entry 6). Safe. -/
inductive Fault where
  deriving DecidableEq, Repr

/-- The machine refuses an instruction. -/
inductive Refusal where
  /-- An arm of `exec` that has no meaning yet. Raised by no arm of this model. Safe. -/
  | notModelled (mnemonic : String)
  deriving DecidableEq, Repr

/-- The machine right after `Reset` (R27, R150). No byte of memory is listed: an unlisted byte reads as its
reset contents, font included. The model's own fields are at the values log entry 4 names. -/
def State.reset : State where
  v := Vector.replicate 16 0x00
  i := 0x0000
  pc := Config.entry
  stack := Vector.replicate 16 0x0000
  sp := 0
  dt := 0x00
  st := 0x00
  fb := Vector.replicate 32 (Vector.replicate 64 false)
  mem := []
  run := .running
  faultCause := .none
  faultInfo := 0x0000
  keys := 0x0000
  rnd := 0x00
  schedule := []
  draws := 0

end Sys2Proof.Machine
end

