-- ==== Sys2Proof/Machine/Font.lean ====
section
/-! DEFINITION. The font table and what an unlisted byte of memory reads as (spec 20_memory.md R31;
10_state.md R19, R27). -/

namespace Sys2Proof.Machine

/-- Glyphs 0 to 7, five bytes each, top row first (R31). Glyph 0 is the source's; the others are the
spec's default table (D27, log entry 5). -/
def fontLow : List Byte :=
  [ 0xF0, 0x90, 0x90, 0x90, 0xF0,
    0x20, 0x60, 0x20, 0x20, 0x70,
    0xF0, 0x10, 0xF0, 0x80, 0xF0,
    0xF0, 0x10, 0xF0, 0x10, 0xF0,
    0x90, 0x90, 0xF0, 0x10, 0x10,
    0xF0, 0x80, 0xF0, 0x10, 0xF0,
    0xF0, 0x80, 0xF0, 0x90, 0xF0,
    0xF0, 0x10, 0x20, 0x40, 0x40 ]

/-- Glyphs 8 to F (R31, D27, log entry 5). -/
def fontHigh : List Byte :=
  [ 0xF0, 0x90, 0xF0, 0x90, 0xF0,
    0xF0, 0x90, 0xF0, 0x10, 0xF0,
    0xF0, 0x90, 0xF0, 0x90, 0x90,
    0xE0, 0x90, 0xE0, 0x90, 0xE0,
    0xF0, 0x80, 0x80, 0x80, 0xF0,
    0xE0, 0x90, 0x90, 0x90, 0xE0,
    0xF0, 0x80, 0xF0, 0x80, 0xF0,
    0xF0, 0x80, 0xF0, 0x80, 0x80 ]

/-- `FONT`: 80 bytes, glyph `g` at offset `5 * g` (R31). -/
def font : List Byte := fontLow ++ fontHigh

/-- What a byte of memory that memory does not list reads as: its reset contents, the font at
0x000..0x04F and 0x00 everywhere else (R19, R27, R31). -/
def unlisted (a : Nat) : Byte := font.getD a 0x00

end Sys2Proof.Machine
end

