-- ==== Sys2Proof/Machine/Ops.lean ====
section
/-! DEFINITION. The named operations over memory, registers, stack, framebuffer, faults and transactions
(spec 10_state.md, 20_memory.md, 40_display.md R71, 60_exceptions.md R120, R134, 70_reset_and_hazards.md R150, R151). -/

namespace Sys2Proof.Machine

/-! ### Memory -/

/-- The byte at an address (R35 with `n = 1`, R39 c). -/
def Memory.read : Memory → Nat → Byte
  | [], a => unlisted a
  | (b, w) :: rest, a => if a = b then w else Memory.read rest a

/-- Lists a byte at its place in the rising order. -/
def Memory.insert (a : Nat) (w : Byte) : Memory → Memory
  | [] => [(a, w)]
  | (b, u) :: rest =>
    if a < b then (a, w) :: (b, u) :: rest
    else if a = b then (a, w) :: rest
    else (b, u) :: Memory.insert a w rest

/-- Takes an address off the list. -/
def Memory.erase (a : Nat) : Memory → Memory
  | [] => []
  | (b, u) :: rest => if a = b then Memory.erase a rest else (b, u) :: Memory.erase a rest

/-- Writes one byte (R36 with `n = 1`), keeping the canonical form. An address above 0xFFF does not exist:
every access is checked before this is reached (R37), and here it leaves memory as it is (log entry 7). -/
def Memory.write (m : Memory) (a : Nat) (w : Byte) : Memory :=
  if a < Config.memSize then
    if w = unlisted a then Memory.erase a m else Memory.insert a w m
  else m

/-- The canonical form: strictly rising addresses of the address space, none listed with the byte it
would read as unlisted. -/
abbrev Memory.wf (m : Memory) : Prop :=
  m.Pairwise (fun p q => p.1 < q.1) ∧ ∀ c ∈ m, c.1 < Config.memSize ∧ c.2 ≠ unlisted c.1

/-- Single-byte reads at ascending addresses (R34, R35). -/
def Memory.readBytes (m : Memory) (a n : Nat) : List Byte :=
  (List.range n).map fun k => Memory.read m (a + k)

/-- Single-byte writes at ascending addresses (R34, R36). -/
def Memory.writeBytes (m : Memory) (a : Nat) : List Byte → Memory
  | [] => m
  | w :: ws => Memory.writeBytes (Memory.write m a w) (a + 1) ws

/-- The big-endian word at an address, as the fetch reads it (R32). -/
def Memory.readWord (m : Memory) (a : Nat) : Word :=
  joinBytes (Memory.read m a) (Memory.read m (a + 1))

/-- A data footprint of `len` bytes from `base`: the lowest address in it above 0xFFF modulo 65536, when
there is one (R37, R125). The sum is exact, without wrap. -/
def outOfBounds (base : Word) (len : Nat) : Option Word :=
  if 0 < len ∧ 0xFFF < base.toNat + (len - 1) then
    some (if 0xFFF < base.toNat then base else 0x1000)
  else none

/-! ### Registers -/

/-- `V[x]` (R7, R10). -/
def State.reg (s : State) (x : RegIdx) : Byte := s.v[x.toNat]'x.isLt

/-- `V[x] <- w` (R7, R10). -/
def State.setReg (s : State) (x : RegIdx) (w : Byte) : State :=
  { s with v := s.v.set x.toNat w x.isLt }

/-- The index of VF (R11). -/
def regF : RegIdx := 0xF

/-- `I <- w` (R12). -/
def State.setI (s : State) (w : Word) : State := { s with i := w }

/-- `pc <- w` (R7, R13). -/
def State.setPc (s : State) (w : Word) : State := { s with pc := w }

/-- `DT <- w` (R16). -/
def State.setDt (s : State) (w : Byte) : State := { s with dt := w }

/-- `ST <- w` (R17). -/
def State.setSt (s : State) (w : Byte) : State := { s with st := w }

/-- Replaces the framebuffer (R18). -/
def State.setFb (s : State) (f : Frame) : State := { s with fb := f }

/-- Replaces memory (R19). -/
def State.setMem (s : State) (m : Memory) : State := { s with mem := m }

/-- Registers from number `k` upward take the bytes in order (R105). -/
def State.loadRegs (s : State) (k : Nat) : List Byte → State
  | [] => s
  | w :: ws => State.loadRegs (s.setReg (BitVec.ofNat 4 k) w) (k + 1) ws

/-! ### Program counter (R56) -/

/-- `pc <- this_pc + 2`. -/
def State.advance (s : State) : State := s.setPc (s.pc + 2)

/-- `pc <- this_pc + 4` when the condition holds, else `pc <- this_pc + 2`. -/
def State.skipIf (s : State) (c : Bool) : State :=
  s.setPc (if c then s.pc + 4 else s.pc + 2)

/-! ### Return stack (R14, R15) -/

/-- `stack[k]`. -/
def State.stackAt (s : State) (k : BitVec 4) : Word := s.stack[k.toNat]'k.isLt

/-- Writes the next free entry and counts it: `stack[sp] <- w; sp <- sp + 1` (R77). -/
def State.push (s : State) (w : Word) : State :=
  { s with stack := s.stack.set s.sp.toNat w s.sp.isLt, sp := s.sp + 1 }

/-- `sp <- sp - 1`; the popped entry keeps its value (R14, R75). -/
def State.pop (s : State) : State := { s with sp := s.sp - 1 }

/-! ### Framebuffer (R18) and the sprite blit (R71) -/

/-- `FB[r][c]`; a coordinate outside the grid has no cell and reads as off. -/
def Frame.get (f : Frame) (r c : Nat) : Bool :=
  if h : r < 32 ∧ c < 64 then (f[r]'h.1)[c]'h.2 else false

/-- `FB[r][c] <- FB[r][c] ^ 1`; outside the grid nothing (clipping, R71). -/
def Frame.flip (f : Frame) (r c : Nat) : Frame :=
  if h : r < 32 ∧ c < 64 then f.set r ((f[r]'h.1).set c (!(f[r]'h.1)[c]'h.2) h.2) h.1 else f

/-- The framebuffer with every cell off (R70). -/
def Frame.clear : Frame := Vector.replicate 32 (Vector.replicate 64 false)

/-- `FB[r][c]`. -/
def State.cell (s : State) (r c : Nat) : Bool := Frame.get s.fb r c

/-- One pixel of the blit: column `col` of the row byte `b`, drawn at column `vx + col`, row `cy`, both
exact; the accumulator holds the framebuffer and `collided` (R71). -/
def blitPixel (vx cy : Nat) (b : Byte) (acc : Frame × Bool) (col : Nat) : Frame × Bool :=
  if b.getLsbD (7 - col) = true ∧ vx + col ≤ 63 ∧ cy ≤ 31 then
    (Frame.flip acc.1 cy (vx + col), acc.2 || Frame.get acc.1 cy (vx + col))
  else acc

/-- The eight pixels of one row byte, leftmost first (R71). -/
def blitRow (vx cy : Nat) (b : Byte) (acc : Frame × Bool) : Frame × Bool :=
  (List.range 8).foldl (blitPixel vx cy b) acc

/-- The rows of a sprite, the first at row `cy` (R71). -/
def blit (vx cy : Nat) : List Byte → Frame × Bool → Frame × Bool
  | [], acc => acc
  | b :: bs, acc => blit vx (cy + 1) bs (blitRow vx cy b acc)

/-! ### Faults -/

/-- The bit of `run` as the host reads it (R20). -/
def RunState.bit : RunState → BitVec 1
  | .running => 0
  | .faulted => 1

/-- The code of `fault_cause` as the host reads it (R20, R121 to R126). -/
def FaultCause.code : FaultCause → BitVec 3
  | .none => 0
  | .pcOutOfBounds => 1
  | .unimplementedOpcode => 2
  | .stackOverflow => 3
  | .stackUnderflow => 4
  | .memOutOfBounds => 5
  | .keyIndexOutOfRange => 6

/-- `raise F(info)`: taking a fault, the one exception entry of this hardware. It writes the three status
fields and nothing else (R120, R128). There is no return from it but `Reset` and `Load` (R129). -/
def State.raise (s : State) (cause : FaultCause) (info : Word) : State :=
  { s with run := .faulted, faultCause := cause, faultInfo := info }

/-- Runs `body` unless a data footprint of `len` bytes at `I` leaves memory: then `MemOutOfBounds`, before
any access or write (R37, R125). -/
def State.guardFootprint (s : State) (len : Nat) (body : State) : State :=
  match outOfBounds s.i len with
  | some first => s.raise .memOutOfBounds first
  | none => body

/-! ### Transactions (R8) -/

/-- The transaction the next step performs: the first one fixed, else a free one, which may be any of the four
with any inputs (R8, R21, R22, R134; log entries 2, 3). -/
def State.nextTransaction (s : State) : Transaction :=
  match s.schedule with
  | t :: _ => t
  | [] => Config.freeTransaction s.draws

/-- Takes that transaction off the schedule, or counts the draw. -/
def State.consume (s : State) : State :=
  match s.schedule with
  | _ :: rest => { s with schedule := rest }
  | [] => { s with draws := s.draws + 1 }

/-- The inputs of a Step, sampled once at its start (R21, R22). -/
def State.sample (s : State) (keys : BitVec 16) (rnd : Byte) : State :=
  { s with keys := keys, rnd := rnd }

/-- `Tick` (R134): each non-zero timer down by one, in any run state. -/
def State.tick (s : State) : State :=
  { s with
    dt := if 0 < s.dt.toNat then s.dt - 1 else s.dt
    st := if 0 < s.st.toNat then s.st - 1 else s.st }

/-- `Reset` (R150): everything the spec gives the machine to its reset value; which transactions come next
is not the core's and stays. -/
def State.resetCore (s : State) : State :=
  { State.reset with schedule := s.schedule, draws := s.draws }

/-- What `Load` answers to the host (R139, R151). -/
inductive LoadResult where
  | ok
  | imageTooLarge
  deriving DecidableEq, Repr

/-- The result of `Load(image)` (R151). -/
def loadResult (image : List Byte) : LoadResult :=
  if Config.imageMax < image.length then .imageTooLarge else .ok

/-- `Load(image)` (R151, R152): `Reset`, then the size check, then the copy to 0x200. -/
def State.load (s : State) (image : List Byte) : State :=
  let r := s.resetCore
  match loadResult image with
  | .imageTooLarge => r
  | .ok => r.setMem (Memory.writeBytes r.mem Config.entry.toNat image)

/-- The fetch (R32, R54): the word at pc, or nothing when pc >= 0x0FFF. -/
def State.fetchWord (s : State) : Option Word :=
  if 0x0FFF ≤ s.pc.toNat then none else some (Memory.readWord s.mem s.pc.toNat)

/-- The transactions from the first Step on; where there is none, a Step with free inputs (log entry 9). -/
def fromFirstStep (draws : Nat) : List Transaction → List Transaction
  | [] => [.step (Config.freeKeys draws) (Config.freeRnd draws)]
  | .step keys rnd :: rest => .step keys rnd :: rest
  | .tick :: rest => fromFirstStep draws rest
  | .reset :: rest => fromFirstStep draws rest
  | .load _ :: rest => fromFirstStep draws rest

/-- A running core whose next transaction is a Step and whose fetch will read the word `w`: the word is
stored at pc. Where pc is past the last address a fetch can use, pc is first set to `ENTRY`; a FAULTED core is
set RUNNING; transactions standing before the first Step are taken off, and where no Step is fixed one with free
inputs is put in front (log entry 9). -/
def State.placeWord (s : State) (w : Word) : State :=
  let p := if 0x0FFF ≤ s.pc.toNat then Config.entry else s.pc
  { s with
    pc := p
    mem := Memory.writeBytes s.mem p.toNat [highByte w, lowByte w]
    run := .running
    faultCause := .none
    faultInfo := 0
    schedule := fromFirstStep s.draws s.schedule }

end Sys2Proof.Machine
end

