-- ==== Sys2Proof/Machine/Operands.lean ====
section
/-! DEFINITION. The operand forms (spec 30_encoding.md R53): immediates, register ranges, the shifted operand,
decimal digits and the key inputs. -/

namespace Sys2Proof.Machine

/-- `zext_16(nnn)` (R53). -/
def zext12 (nnn : Addr12) : Word := nnn.setWidth 16

/-- `zext_16` of a byte (R53). -/
def zext8 (b : Byte) : Word := b.setWidth 16

/-- The operand of 8xy6 and 8xyE (R94, R96, parameter `SHIFT_SRC`). -/
def State.shiftOperand (s : State) (x y : RegIdx) : Byte :=
  match Config.shiftSrc with
  | .vy => s.reg y
  | .vx => s.reg x

/-- `V[0]..V[x]` in ascending order, `x + 1` bytes (R104). -/
def State.regsUpTo (s : State) (x : RegIdx) : List Byte :=
  (List.range (x.toNat + 1)).map fun k => s.reg (BitVec.ofNat 4 k)

/-- The hundreds, tens and ones digits of a byte, a byte each (R103). -/
def decimalDigits (b : Byte) : List Byte :=
  [ BitVec.ofNat 8 (b.toNat / 100), BitVec.ofNat 8 (b.toNat / 10 % 10), BitVec.ofNat 8 (b.toNat % 10) ]

/-- The font address of a digit: `zext_16(V[x]) * 5`, the whole byte (R102). -/
def glyphAddress (b : Byte) : Word := zext8 b * 5

/-- Whether key `k` is down in the sampled vector (R21). -/
def State.keyDown (s : State) (k : Nat) : Bool := s.keys.getLsbD k

/-- The smallest key that is down (R113, parameter `KEYWAIT_PICK`). -/
def State.lowestKey (s : State) : Option Nat :=
  (List.range 16).find? s.keyDown

end Sys2Proof.Machine
end

