-- ==== Sys2Proof/Machine/Flags.lean ====
section
/-! DEFINITION. The 16-bit ALU and the flag it writes to VF (spec 42_register_alu.md R85, R98; 10_state.md R11). -/

namespace Sys2Proof.Machine

/-- `sum = zext_16(a) + zext_16(b)` (R85). -/
def aluAdd (a b : Byte) : Word := zext8 a + zext8 b

/-- `diff = (zext_16(a) - zext_16(b)) mod 65536` (R85). -/
def aluSub (a b : Byte) : Word := zext8 a - zext8 b

/-- `sh = zext_16(a) << 1` (R85). -/
def aluShl (a : Byte) : Word := zext8 a <<< 1

/-- `a >> 1`, bit 7 becoming 0 (R85). -/
def aluShr (a : Byte) : Byte := a >>> 1

/-- `result[7:0]` (R85). -/
def aluResult (w : Word) : Byte := w.setWidth 8

/-- Bit 8 of the wide result: the carry of a sum, the borrow of a difference, the bit a left shift moves
out (R85). -/
def aluBit8 (w : Word) : Bool := w.getLsbD 8

/-- A flag as VF holds it: 0x00 or 0x01 (R11). -/
def flagByte (f : Bool) : Byte := if f then 0x01 else 0x00

/-- The result to `V[x]`, then the flag to VF, in that order (R98). -/
def State.setResultFlag (s : State) (x : RegIdx) (result : Byte) (flag : Bool) : State :=
  (s.setReg x result).setReg regF (flagByte flag)

/-- What a bitwise operation does to VF after its result (R89, parameter `LOGIC_VF`). -/
def State.logicFlag (s : State) : State :=
  match Config.logicVf with
  | .unchanged => s
  | .cleared => s.setReg regF 0x00

end Sys2Proof.Machine
end

