-- ==== Sys2Proof/Machine/ControlFlow.lean ====
section
/-! DEFINITION. Control transfer: 00EE, 1nnn, 2nnn, 3xnn, 4xnn, 5xy0, 9xy0, Bnnn (spec 41_control_flow.md). -/

namespace Sys2Proof.Machine

/-- 00EE RET (R75, R124): the popped entry is the call site, so 2 is added. -/
def execRet (s : State) : Host.Outcome State Fault Refusal :=
  .next (if s.sp = 0 then s.raise .stackUnderflow s.pc
    else s.pop.setPc (s.stackAt (s.sp - 1) + 2))

/-- 1nnn JP (R76). -/
def execJp (nnn : Addr12) (s : State) : Host.Outcome State Fault Refusal :=
  .next (s.setPc (zext12 nnn))

/-- 2nnn CALL (R77, R123): pushes the call site, not the return address. -/
def execCall (nnn : Addr12) (s : State) : Host.Outcome State Fault Refusal :=
  .next (if s.sp.toNat = Config.maxNest then s.raise .stackOverflow s.pc
    else (s.push s.pc).setPc (zext12 nnn))

/-- 3xnn SE Vx, nn (R78). -/
def execSeImm (x : RegIdx) (nn : Byte) (s : State) : Host.Outcome State Fault Refusal :=
  .next (s.skipIf (s.reg x == nn))

/-- 4xnn SNE Vx, nn (R79). -/
def execSneImm (x : RegIdx) (nn : Byte) (s : State) : Host.Outcome State Fault Refusal :=
  .next (s.skipIf (s.reg x != nn))

/-- 5xy0 SE Vx, Vy (R80). -/
def execSeReg (x y : RegIdx) (s : State) : Host.Outcome State Fault Refusal :=
  .next (s.skipIf (s.reg x == s.reg y))

/-- 9xy0 SNE Vx, Vy (R81). -/
def execSneReg (x y : RegIdx) (s : State) : Host.Outcome State Fault Refusal :=
  .next (s.skipIf (s.reg x != s.reg y))

/-- Bnnn JP V0, nnn (R82): the sum is not masked. -/
def execJpV0 (nnn : Addr12) (s : State) : Host.Outcome State Fault Refusal :=
  .next (s.setPc (zext12 nnn + zext8 (s.reg 0)))

end Sys2Proof.Machine
end

