-- ==== Sys2Proof/Machine/Display.lean ====
section
/-! DEFINITION. The display instructions 00E0 and Dxyn (spec 40_display.md). -/

namespace Sys2Proof.Machine

/-- 00E0 CLS (R70). -/
def execCls (s : State) : Host.Outcome State Fault Refusal :=
  .next (s.setFb Frame.clear).advance

/-- The sprite of Dxyn: `n` bytes from `I`, all of them within memory (R71). -/
def State.sprite (s : State) (n : Nibble) : List Byte :=
  Memory.readBytes s.mem s.i.toNat n.toNat

/-- The framebuffer and the collision flag after drawing at column `V[x]`, row `V[y]` (R71). -/
def State.drawn (s : State) (x y : RegIdx) (n : Nibble) : Frame × Bool :=
  blit (s.reg x).toNat (s.reg y).toNat (s.sprite n) (s.fb, false)

/-- Dxyn DRW (R71): the footprint check, the blit, then VF. -/
def execDrw (x y : RegIdx) (n : Nibble) (s : State) : Host.Outcome State Fault Refusal :=
  .next (s.guardFootprint n.toNat
    ((s.setFb (s.drawn x y n).1).setReg regF (flagByte (s.drawn x y n).2)).advance)

end Sys2Proof.Machine
end

