-- ==== Sys2Proof/Machine/IndexMemory.lean ====
section
/-! DEFINITION. Index register and memory transfers: Annn, Fx1E, Fx29, Fx33, Fx55, Fx65 (spec 43_index_memory.md). -/

namespace Sys2Proof.Machine

/-- Annn LD I, nnn (R100). -/
def execLdI (nnn : Addr12) (s : State) : Host.Outcome State Fault Refusal :=
  .next (s.setI (zext12 nnn)).advance

/-- Fx1E ADD I, Vx (R101): modulo 65536, VF not written. -/
def execAddIVx (x : RegIdx) (s : State) : Host.Outcome State Fault Refusal :=
  .next (s.setI (s.i + zext8 (s.reg x))).advance

/-- Fx29 LD F, Vx (R102). -/
def execLdFVx (x : RegIdx) (s : State) : Host.Outcome State Fault Refusal :=
  .next (s.setI (glyphAddress (s.reg x))).advance

/-- Fx33 LD B, Vx (R103): I is not changed. -/
def execLdBVx (x : RegIdx) (s : State) : Host.Outcome State Fault Refusal :=
  .next (s.guardFootprint 3
    (s.setMem (Memory.writeBytes s.mem s.i.toNat (decimalDigits (s.reg x)))).advance)

/-- `I <- (I + x + 1) mod 65536` (R104, R105). -/
def State.advanceI (s : State) (x : RegIdx) : State :=
  s.setI (s.i + x.setWidth 16 + 1)

/-- Fx55 LD [I], Vx (R104): stores, then advances I. -/
def execLdMemVx (x : RegIdx) (s : State) : Host.Outcome State Fault Refusal :=
  .next (s.guardFootprint (x.toNat + 1)
    ((s.setMem (Memory.writeBytes s.mem s.i.toNat (s.regsUpTo x))).advanceI x).advance)

/-- Fx65 LD Vx, [I] (R105): loads, then advances I. -/
def execLdVxMem (x : RegIdx) (s : State) : Host.Outcome State Fault Refusal :=
  .next (s.guardFootprint (x.toNat + 1)
    ((s.loadRegs 0 (Memory.readBytes s.mem s.i.toNat (x.toNat + 1))).advanceI x).advance)

end Sys2Proof.Machine
end

