-- ==== Sys2Proof/Machine/KeypadTimers.lean ====
section
/-! DEFINITION. Keypad and timers: Ex9E, ExA1, Fx07, Fx0A, Fx15, Fx18 (spec 44_keypad_timers.md). -/

namespace Sys2Proof.Machine

/-- Runs `body` unless the key number in `V[x]` is above 15: then `KeyIndexOutOfRange` (R110, R111, R126). -/
def State.guardKey (s : State) (x : RegIdx) (body : State) : State :=
  if 15 < (s.reg x).toNat then s.raise .keyIndexOutOfRange (zext8 (s.reg x)) else body

/-- Ex9E SKP Vx (R110). -/
def execSkp (x : RegIdx) (s : State) : Host.Outcome State Fault Refusal :=
  .next (s.guardKey x (s.skipIf (s.keyDown (s.reg x).toNat)))

/-- ExA1 SKNP Vx (R111). -/
def execSknp (x : RegIdx) (s : State) : Host.Outcome State Fault Refusal :=
  .next (s.guardKey x (s.skipIf (!s.keyDown (s.reg x).toNat)))

/-- Fx07 LD Vx, DT (R112). -/
def execLdVxDt (x : RegIdx) (s : State) : Host.Outcome State Fault Refusal :=
  .next (s.setReg x s.dt).advance

/-- Fx0A LD Vx, K (R113): with no key down nothing changes and the next Step repeats the instruction. -/
def execLdVxK (x : RegIdx) (s : State) : Host.Outcome State Fault Refusal :=
  .next (match s.lowestKey with
    | none => s
    | some k => (s.setReg x (BitVec.ofNat 8 k)).advance)

/-- Fx15 LD DT, Vx (R114). -/
def execLdDtVx (x : RegIdx) (s : State) : Host.Outcome State Fault Refusal :=
  .next (s.setDt (s.reg x)).advance

/-- Fx18 LD ST, Vx (R115). -/
def execLdStVx (x : RegIdx) (s : State) : Host.Outcome State Fault Refusal :=
  .next (s.setSt (s.reg x)).advance

end Sys2Proof.Machine
end

