-- ==== Sys2Proof/Machine/RegisterAlu.lean ====
section
/-! DEFINITION. Register and ALU instructions: 6xnn, 7xnn, 8xy0 to 8xy7, 8xyE, Cxnn (spec 42_register_alu.md). -/

namespace Sys2Proof.Machine

/-- 6xnn LD Vx, nn (R86). -/
def execLdImm (x : RegIdx) (nn : Byte) (s : State) : Host.Outcome State Fault Refusal :=
  .next (s.setReg x nn).advance

/-- 7xnn ADD Vx, nn (R87): VF is not written. -/
def execAddImm (x : RegIdx) (nn : Byte) (s : State) : Host.Outcome State Fault Refusal :=
  .next (s.setReg x (aluResult (aluAdd (s.reg x) nn))).advance

/-- 8xy0 LD Vx, Vy (R88). -/
def execLdReg (x y : RegIdx) (s : State) : Host.Outcome State Fault Refusal :=
  .next (s.setReg x (s.reg y)).advance

/-- 8xy1 OR Vx, Vy (R89). -/
def execOrReg (x y : RegIdx) (s : State) : Host.Outcome State Fault Refusal :=
  .next (s.setReg x (s.reg x ||| s.reg y)).logicFlag.advance

/-- 8xy2 AND Vx, Vy (R90). -/
def execAndReg (x y : RegIdx) (s : State) : Host.Outcome State Fault Refusal :=
  .next (s.setReg x (s.reg x &&& s.reg y)).logicFlag.advance

/-- 8xy3 XOR Vx, Vy (R91). -/
def execXorReg (x y : RegIdx) (s : State) : Host.Outcome State Fault Refusal :=
  .next (s.setReg x (s.reg x ^^^ s.reg y)).logicFlag.advance

/-- 8xy4 ADD Vx, Vy (R92, R98): VF is the carry. -/
def execAddReg (x y : RegIdx) (s : State) : Host.Outcome State Fault Refusal :=
  let sum := aluAdd (s.reg x) (s.reg y)
  .next (s.setResultFlag x (aluResult sum) (aluBit8 sum)).advance

/-- 8xy5 SUB Vx, Vy (R93, R98): VF is NOT borrow. -/
def execSubReg (x y : RegIdx) (s : State) : Host.Outcome State Fault Refusal :=
  let diff := aluSub (s.reg x) (s.reg y)
  .next (s.setResultFlag x (aluResult diff) (!aluBit8 diff)).advance

/-- 8xy6 SHR Vx, Vy (R94, R98): VF is the bit shifted out. -/
def execShr (x y : RegIdx) (s : State) : Host.Outcome State Fault Refusal :=
  let a := s.shiftOperand x y
  .next (s.setResultFlag x (aluShr a) (a.getLsbD 0)).advance

/-- 8xy7 SUBN Vx, Vy (R95, R98): VF is NOT borrow. -/
def execSubnReg (x y : RegIdx) (s : State) : Host.Outcome State Fault Refusal :=
  let diff := aluSub (s.reg y) (s.reg x)
  .next (s.setResultFlag x (aluResult diff) (!aluBit8 diff)).advance

/-- 8xyE SHL Vx, Vy (R96, R98): VF is the bit shifted out. -/
def execShl (x y : RegIdx) (s : State) : Host.Outcome State Fault Refusal :=
  let sh := aluShl (s.shiftOperand x y)
  .next (s.setResultFlag x (aluResult sh) (aluBit8 sh)).advance

/-- Cxnn RND Vx, nn (R97): the random byte is the one sampled for this Step (R22). -/
def execRnd (x : RegIdx) (nn : Byte) (s : State) : Host.Outcome State Fault Refusal :=
  .next (s.setReg x (s.rnd &&& nn)).advance

end Sys2Proof.Machine
end

