-- ==== Sys2Proof/Machine/Cycle.lean ====
section
/-! DEFINITION. The instruction cycle (spec 30_encoding.md R54) and the performance of a transaction (00_scope.md R8). -/

namespace Sys2Proof.Machine

/-- Fetch, decode, execute (R54), for a core whose inputs are sampled. FAULTED: nothing changes (R129).
Faults are raised in the order fetch, decode, the instruction's own (R127). -/
def State.cycle (s : State) : Host.Outcome State Fault Refusal :=
  match s.run with
  | .faulted => .next s
  | .running =>
    match s.fetchWord with
    | none => .next (s.raise .pcOutOfBounds s.pc)
    | some op =>
      match decodeWord op with
      | none => .next (s.raise .unimplementedOpcode op)
      | some instr => exec instr s

/-- Performs one whole transaction, the next one (R8). -/
def State.transact (s : State) : Host.Outcome State Fault Refusal :=
  match s.nextTransaction with
  | .step keys rnd => (s.consume.sample keys rnd).cycle
  | .tick => .next s.consume.tick
  | .reset => .next s.consume.resetCore
  | .load image => .next (s.consume.load image)

end Sys2Proof.Machine
end

