-- ==== Sys2Proof/Machine/Step.lean ====
section
/-! DEFINITION. One step of the machine: the next transaction (spec 00_scope.md R8, 30_encoding.md R54). -/

namespace Sys2Proof.Machine

/-- One step performs the next transaction, whole (R8). -/
def step (s : State) : Host.Outcome State Fault Refusal := s.transact

/-- `s` with a table word where the next step fetches its instruction (log entry 9). -/
def State.withFetchWord (s : State) (nbits w : Nat) : State := s.placeWord (tableWord nbits w)

end Sys2Proof.Machine
end

