-- ==== Sys2Proof/Safety.lean ====
section
/-! DEFINITION. The terms claims are stated in: which part of the state two states share, the invariant of the
machine (spec 10_state.md R28), and where a sprite lands (40_display.md R71). -/

namespace Sys2Proof.Machine

/-- The parts of the state (R10 to R20), and the model's own two. -/
inductive Part where
  | regs
  | index
  | pc
  | stack
  | sp
  | delay
  | sound
  | frame
  | memory
  | status
  | inputs
  | queue
  deriving DecidableEq, Repr

/-- Two states agree on a part. Memory agrees when every byte reads the same. -/
def Part.same : Part → State → State → Prop
  | .regs, s, t => ∀ k, t.reg k = s.reg k
  | .index, s, t => t.i = s.i
  | .pc, s, t => t.pc = s.pc
  | .stack, s, t => ∀ k, t.stackAt k = s.stackAt k
  | .sp, s, t => t.sp = s.sp
  | .delay, s, t => t.dt = s.dt
  | .sound, s, t => t.st = s.st
  | .frame, s, t => ∀ r c, t.cell r c = s.cell r c
  | .memory, s, t => ∀ a, Memory.read t.mem a = Memory.read s.mem a
  | .status, s, t => t.run = s.run ∧ t.faultCause = s.faultCause ∧ t.faultInfo = s.faultInfo
  | .inputs, s, t => t.keys = s.keys ∧ t.rnd = s.rnd
  | .queue, s, t => t.schedule = s.schedule ∧ t.draws = s.draws

/-- Two states agree on every part but those listed: the frame of an instruction that may write the
listed parts only. -/
def agreeOutside (ps : List Part) (s t : State) : Prop :=
  ∀ p, p ∉ ps → p.same s t

/-- The parts of the state that are the hardware's; the other two are the model's own (log entry 1). -/
def modelParts : List Part := [.inputs, .queue]

/-- Two states agree on everything the spec gives the machine (R26: R10 to R20). -/
def sameCore (s t : State) : Prop := agreeOutside modelParts s t

/-- A sprite bit that is 1 lands on row `r`, column `c`, when Dxyn draws `n` rows from `I` at column `V[x]`,
row `V[y]`: coordinates exact, not wrapped (R71). Cells of the grid have `r < 32` and `c < 64`. -/
def spriteHits (s : State) (x y : RegIdx) (n : Nibble) (r c : Nat) : Prop :=
  ∃ row col, row < n.toNat ∧ col < 8 ∧ r = (s.reg y).toNat + row ∧ c = (s.reg x).toNat + col ∧
    (Memory.read s.mem (s.i.toNat + row)).getLsbD (7 - col) = true

/-- The words of an instruction: a word holds the mask's fixed bits exactly when it decodes to the
instruction whose operands are its fields (R52, R57). -/
def encodedAs (mask pattern : Word) (instr : Word → Instr) : Prop :=
  ∀ w, w &&& mask = pattern ↔ decodeWord w = some (instr w)

/-- A step or an instruction takes a fault: the status fields record it and nothing else changes (R120, R128). -/
def faultsWith (s : State) (o : Host.Outcome State Fault Refusal) (cause : FaultCause) (info : Word) : Prop :=
  ∃ t, o = .next t ∧ t.run = .faulted ∧ t.faultCause = cause ∧ t.faultInfo = info ∧
    agreeOutside [.status] s t

/-- The lowest address above 0xFFF of a data footprint that starts at `I` and leaves memory (R37, R125). -/
def firstBeyond (base : Word) : Word := if 0xFFF < base.toNat then base else 0x1000

/-- The parts an instruction may write beside `pc` when it does not fault: the W columns of R29. -/
def writtenParts : Instr → List Part
  | .cls => [.frame]
  | .ret => [.sp]
  | .jp _ => []
  | .call _ => [.stack, .sp]
  | .seImm _ _ => []
  | .sneImm _ _ => []
  | .seReg _ _ => []
  | .sneReg _ _ => []
  | .ldImm _ _ => [.regs]
  | .addImm _ _ => [.regs]
  | .ldReg _ _ => [.regs]
  | .orReg _ _ => [.regs]
  | .andReg _ _ => [.regs]
  | .xorReg _ _ => [.regs]
  | .addReg _ _ => [.regs]
  | .subReg _ _ => [.regs]
  | .shr _ _ => [.regs]
  | .subnReg _ _ => [.regs]
  | .shl _ _ => [.regs]
  | .ldI _ => [.index]
  | .jpV0 _ => []
  | .rnd _ _ => [.regs]
  | .drw _ _ _ => [.regs, .frame]
  | .skp _ => []
  | .sknp _ => []
  | .ldVxDt _ => [.regs]
  | .ldVxK _ => [.regs]
  | .ldDtVx _ => [.delay]
  | .ldStVx _ => [.sound]
  | .addIVx _ => [.index]
  | .ldFVx _ => [.index]
  | .ldBVx _ => [.memory]
  | .ldMemVx _ => [.index, .memory]
  | .ldVxMem _ => [.index, .regs]

/-- The registers an instruction may write: the V column of R29. -/
def writesReg : Instr → RegIdx → Prop
  | .ldImm x _, k => k = x
  | .addImm x _, k => k = x
  | .ldReg x _, k => k = x
  | .orReg x _, k => k = x
  | .andReg x _, k => k = x
  | .xorReg x _, k => k = x
  | .addReg x _, k => k = x ∨ k = 0xF
  | .subReg x _, k => k = x ∨ k = 0xF
  | .shr x _, k => k = x ∨ k = 0xF
  | .subnReg x _, k => k = x ∨ k = 0xF
  | .shl x _, k => k = x ∨ k = 0xF
  | .rnd x _, k => k = x
  | .drw _ _ _, k => k = 0xF
  | .ldVxDt x, k => k = x
  | .ldVxK x, k => k = x
  | .ldVxMem x, k => k.toNat ≤ x.toNat
  | .cls, _ => False
  | .ret, _ => False
  | .jp _, _ => False
  | .call _, _ => False
  | .seImm _ _, _ => False
  | .sneImm _ _, _ => False
  | .seReg _ _, _ => False
  | .sneReg _ _, _ => False
  | .ldI _, _ => False
  | .jpV0 _, _ => False
  | .skp _, _ => False
  | .sknp _, _ => False
  | .ldDtVx _, _ => False
  | .ldStVx _, _ => False
  | .addIVx _, _ => False
  | .ldFVx _, _ => False
  | .ldBVx _, _ => False
  | .ldMemVx _, _ => False

/-- How many bytes an instruction stores, from address `I` upward: the mem column of R29. -/
def storedBytes : Instr → Nat
  | .ldBVx _ => 3
  | .ldMemVx x => x.toNat + 1
  | .cls => 0
  | .ret => 0
  | .jp _ => 0
  | .call _ => 0
  | .seImm _ _ => 0
  | .sneImm _ _ => 0
  | .seReg _ _ => 0
  | .sneReg _ _ => 0
  | .ldImm _ _ => 0
  | .addImm _ _ => 0
  | .ldReg _ _ => 0
  | .orReg _ _ => 0
  | .andReg _ _ => 0
  | .xorReg _ _ => 0
  | .addReg _ _ => 0
  | .subReg _ _ => 0
  | .shr _ _ => 0
  | .subnReg _ _ => 0
  | .shl _ _ => 0
  | .ldI _ => 0
  | .jpV0 _ => 0
  | .rnd _ _ => 0
  | .drw _ _ _ => 0
  | .skp _ => 0
  | .sknp _ => 0
  | .ldVxDt _ => 0
  | .ldVxK _ => 0
  | .ldDtVx _ => 0
  | .ldStVx _ => 0
  | .addIVx _ => 0
  | .ldFVx _ => 0
  | .ldVxMem _ => 0

/-- A step's inputs are sampled: the state in which a Step's instruction cycle begins (R54). -/
def State.begun (s : State) (keys : BitVec 16) (rnd : Byte) : State := s.consume.sample keys rnd

/-- `n` transactions, one step each; nothing where a step answers no next state. -/
def State.steps : Nat → State → Option State
  | 0, s => some s
  | n + 1, s =>
    match step s with
    | .next t => State.steps n t
    | .fault _ => none
    | .refused _ => none

/-- What holds after reset and is kept by every step. R28 states `status` and `stack`: RUNNING goes with no fault
recorded, and a live stack entry passed the fetch check. The other clauses are not R28's: that memory is canonical is
the model's own form (log entry 14); that `fault_info` is zero while RUNNING goes with the spec's decision D9, that
`stack[15]` is never written with D5 (R15), that pc never passes 0x10FE with D12 (R13; log entry 8). -/
structure CoreInv (s : State) : Prop where
  memory : Memory.wf s.mem
  status : s.run = .running ↔ s.faultCause = .none
  info : s.run = .running → s.faultInfo = 0
  stack : ∀ k, k < s.sp → (s.stackAt k).toNat ≤ 0x0FFE
  top : s.stackAt 15 = 0
  pc : s.pc.toNat ≤ 0x10FE

end Sys2Proof.Machine
end

