-- ==== Sys2Proof/Certificates/Slice0/Obligations.lean ====
section
/-! DEFINITION. The statements about the machine, each from the numbered rules of spec/. A statement about an
instruction holds for every form the spec gives it, and says its words, its result, its pc and its frame. -/

open Sys2Proof Sys2Proof.Machine

/-! ### Encoding (30_encoding.md) -/

/-- R57, R58: nine words written out from the encodings, and two illegal ones, decode to what they stand for.
Which operation a value of n selects in family 8 is the spec's decision D14 (log entry 8). -/
def Obligations.SampleWordsDecode : Prop :=
  decodeTableWord 16 0b0000000011100000 = some .cls ∧
  decodeTableWord 16 0b0000000011101110 = some .ret ∧
  decodeTableWord 16 0b0001101010111100 = some (.jp 0xABC) ∧
  decodeTableWord 16 0b0011001100101010 = some (.seImm 0x3 0x2A) ∧
  decodeTableWord 16 0b1000000100100111 = some (.subnReg 0x1 0x2) ∧
  decodeTableWord 16 0b1011001100000000 = some (.jpV0 0x300) ∧
  decodeTableWord 16 0b1101000000010101 = some (.drw 0x0 0x1 0x5) ∧
  decodeTableWord 16 0b1110001010100001 = some (.sknp 0x2) ∧
  decodeTableWord 16 0b1111001001100101 = some (.ldVxMem 0x2) ∧
  decodeTableWord 16 0b1000000100101000 = none ∧
  decodeTableWord 16 0b0000000000000000 = none

/-- R32, R50 to R52, R57: every instruction, with every operand at every value, is what its two bytes decode to,
whatever bytes follow. -/
def Obligations.DecodeOfEncode : Prop :=
  ∀ (i : Instr) (rest : List Byte), decode (encodeBytes i ++ rest) = .ok (i, rest)

/-- R52, R57: each legal word has one meaning, and no bit of it is dropped. The rows of family 8 are the spec's
decision D14 (log entry 8). -/
def Obligations.EncodeOfDecode : Prop :=
  ∀ (w : Word) (i : Instr), decodeWord w = some i → encode i = w

/-- R52, R55, R57: the decision tree is the table of (mask, match) pairs. The rows of family 8 are the spec's
decision D14 (log entry 8). -/
def Obligations.DecodeIsTheOpcodeMap : Prop :=
  ∀ w, ∀ r ∈ opcodeMap, r.fits w = true ↔ ∃ i, decodeWord w = some i ∧ i.mnemonic = r.mnemonic

/-- R52 (which the spec marks as derived from R57): the 34 (mask, match) pairs are mutually exclusive. -/
def Obligations.OpcodeRowsExclusive : Prop :=
  opcodeMap.length = 34 ∧
    ∀ w, ∀ r ∈ opcodeMap, ∀ q ∈ opcodeMap, r.fits w = true → q.fits w = true → r = q

/-- R58, with D14 (log entry 8): a word is illegal exactly when no row of the map fits it. -/
def Obligations.IllegalWordsAreUnmapped : Prop :=
  ∀ w, decodeWord w = none ↔ wordLegal w = false

/-! ### The instruction cycle and the transactions (R8, R54) -/

/-- R54: one Step, with the inputs it is given: nothing in FAULTED; else the fetch guard, the big-endian fetch,
the decode, and the instruction's own effect. Choices it rests on: the sampled inputs stand in State (log entry
1, the model's); a FAULTED Step changes nothing, and a fault is a next state with the status fields recorded
(the spec's decisions D11, D9; log entries 6, 8); a fetch at an odd pc is like any other (the spec's decision
D13; log entry 8). -/
def Obligations.StepRunsTheDecodedInstruction : Prop :=
  ∀ (s : State) (keys : BitVec 16) (rnd : Byte), s.nextTransaction = .step keys rnd →
    ((s.begun keys rnd).keys = keys ∧ (s.begun keys rnd).rnd = rnd ∧
      sameCore s (s.begun keys rnd)) ∧
    (s.run = .faulted → step s = .next (s.begun keys rnd)) ∧
    (s.run = .running → 0x0FFF ≤ s.pc.toNat →
      faultsWith (s.begun keys rnd) (step s) .pcOutOfBounds s.pc) ∧
    (s.run = .running → s.pc.toNat < 0x0FFF →
      ∀ op : Word, op = Memory.read s.mem s.pc.toNat ++ Memory.read s.mem (s.pc.toNat + 1) →
        (decodeWord op = none →
          faultsWith (s.begun keys rnd) (step s) .unimplementedOpcode op) ∧
        (∀ i, decodeWord op = some i → step s = exec i (s.begun keys rnd)))

/-- R8: transactions are performed whole and in the order fixed; where none is fixed, a free one is performed,
which may be any of the four, and one draw is counted (log entries 2, 3: the model's own). -/
def Obligations.TransactionsInOrder : Prop :=
  ∀ s t, step s = .next t →
    (∀ u rest, s.schedule = u :: rest → s.nextTransaction = u ∧ t.schedule = rest ∧ t.draws = s.draws) ∧
    (s.schedule = [] → t.schedule = [] ∧ t.draws = s.draws + 1 ∧
      s.nextTransaction = Config.freeTransaction s.draws)

/-- Log entry 6, the model's choice (DEDUCED from R54, R120, R129, which do not say it): a fault, and a Step in
FAULTED, are next states of the model. So whatever the state and the transaction, a step answers a next state:
the model stops nowhere. -/
def Obligations.EveryStepAnswers : Prop :=
  ∀ s, ∃ t, step s = .next t

/-- R24, R26: a Step does not depend on the inputs of an earlier one. -/
def Obligations.NoInputIsKept : Prop :=
  ∀ (s : State) (keys keys' : BitVec 16) (rnd rnd' : Byte), s.nextTransaction = .step keys rnd →
    step (s.sample keys' rnd') = step s

/-- R134: Tick, in any run state. That FAULTED is included is the spec's decision D24 (log entry 8). -/
def Obligations.TickDecrementsTimers : Prop :=
  ∀ s, s.nextTransaction = .tick → ∃ t, step s = .next t ∧
    (0 < s.dt.toNat → t.dt.toNat + 1 = s.dt.toNat) ∧ (s.dt = 0 → t.dt = 0) ∧
    (0 < s.st.toNat → t.st.toNat + 1 = s.st.toNat) ∧ (s.st = 0 → t.st = 0) ∧
    agreeOutside [.delay, .sound, .queue] s t

/-- R150: Reset, in any state. Choices it rests on: the three status fields and their values are the spec's
decision D9 (log entry 8); the bytes of `font` for glyphs 1 to F are log entry 5 (PRESUMED); that an address
above 0xFFF reads as 0x00, which the clause over every `a` covers too, is the model's (log entry 7). -/
def Obligations.ResetSetsEverything : Prop :=
  ∀ s, s.nextTransaction = .reset → ∃ t, step s = .next t ∧
    (∀ a, Memory.read t.mem a = font.getD a 0x00) ∧
    (∀ k, t.reg k = 0x00) ∧ (∀ k, t.stackAt k = 0x0000) ∧ (∀ r c, t.cell r c = false) ∧
    t.i = 0x0000 ∧ t.sp = 0 ∧ t.dt = 0x00 ∧ t.st = 0x00 ∧ t.pc = 0x0200 ∧
    t.run = .running ∧ t.faultCause = .none ∧ t.faultInfo = 0x0000

/-- R27: the machine right after reset. The three status fields and their values are the spec's decision D9 (log
entry 8); the bytes of `font` are log entry 5. -/
def Obligations.ResetValues : Prop :=
  (∀ k, State.reset.reg k = 0x00) ∧ State.reset.i = 0x0000 ∧ State.reset.pc = 0x0200 ∧
    State.reset.sp = 0 ∧ (∀ k, State.reset.stackAt k = 0x0000) ∧
    State.reset.dt = 0x00 ∧ State.reset.st = 0x00 ∧ (∀ r c, State.reset.cell r c = false) ∧
    font.length = 80 ∧
    (∀ a, a < 80 → Memory.read State.reset.mem a = font.getD a 0x00) ∧
    (∀ a, 80 ≤ a → a < 4096 → Memory.read State.reset.mem a = 0x00) ∧
    State.reset.run.bit = 0 ∧ State.reset.faultCause.code = 0 ∧ State.reset.faultInfo = 0x0000

/-- R31: glyph 0 as the source gives it, and the low four bits of every font byte zero. The bytes of glyphs 1 to
F are the spec's default table (log entry 5). -/
def Obligations.FontLayout : Prop :=
  Memory.readBytes State.reset.mem 0x000 5 = [0xF0, 0x90, 0x90, 0x90, 0xF0] ∧
    Memory.readBytes State.reset.mem 0x04B 5 = [0xF0, 0x80, 0xF0, 0x80, 0x80] ∧
    ∀ g r, g < 16 → r < 5 → Memory.read State.reset.mem (5 * g + r) &&& 0x0F = 0x00

/-- R151: Load is Reset, then the size check, then the copy. That an image too large leaves the reset state is
the spec's decision D26 (log entry 8). -/
def Obligations.LoadCopiesTheImage : Prop :=
  ∀ s image, s.nextTransaction = .load image → ∃ t, step s = .next t ∧
    agreeOutside (.memory :: modelParts) State.reset t ∧
    (image.length ≤ 3584 → loadResult image = .ok ∧
      (∀ k, k < image.length → Memory.read t.mem (0x200 + k) = image.getD k 0x00) ∧
      (∀ a, ¬(0x200 ≤ a ∧ a < 0x200 + image.length) →
        Memory.read t.mem a = Memory.read State.reset.mem a)) ∧
    (3584 < image.length → loadResult image = .imageTooLarge ∧
      ∀ a, Memory.read t.mem a = Memory.read State.reset.mem a)

/-- R153 (which the spec marks as derived from R150, R151): a core that was reset and not loaded faults at its
first Step, whatever its inputs. -/
def Obligations.FirstStepWithoutAnImage : Prop :=
  ∀ (s : State) (keys : BitVec 16) (rnd : Byte), sameCore State.reset s → s.nextTransaction = .step keys rnd →
    ∃ t, step s = .next t ∧ t.run = .faulted ∧ t.faultCause = .unimplementedOpcode ∧
      t.faultInfo = 0x0000 ∧ t.pc = 0x0200 ∧ agreeOutside (.status :: modelParts) State.reset t

/-! ### The whole machine -/

/-- R27, R150, and R28 (which the spec marks as derived): the invariant holds after reset. Clauses of it that
R28 does not state: that memory is canonical is the model's own form (log entry 14); that fault_info is zero
goes with the spec's decision D9, stack[15] with D5, the bound of pc with D12 (log entry 8). -/
def Obligations.InvariantAtReset : Prop := CoreInv State.reset

/-- R28 (which the spec marks as derived): every step, whatever the transaction, keeps the invariant, from every
state that meets it. Clauses of it that R28 does not state: that memory is canonical is the model's own form
(log entry 14); that fault_info is zero while RUNNING goes with the spec's decision D9, that stack[15] stays
zero with D5, the bound of pc with D12 (log entry 8). -/
def Obligations.InvariantKeptByEveryStep : Prop :=
  ∀ s t, CoreInv s → step s = .next t → CoreInv t

/-- Log entry 14, the model's choice of representation: memories of canonical form that read alike are the same
data. -/
def Obligations.MemoryFormIsCanonical : Prop :=
  ∀ m m' : Memory, m.wf → m'.wf → (∀ a, Memory.read m a = Memory.read m' a) → m = m'

/-- R29 (which the spec marks as derived): the frame of every instruction in the step that does not fault: no
part outside its W columns, no register outside its V column, no byte outside those it stores. -/
def Obligations.FramesOfAllInstructions : Prop :=
  ∀ (i : Instr) (s t : State), exec i s = .next t → s.run = .running → t.run = .running →
    agreeOutside (.pc :: writtenParts i) s t ∧
    (∀ k, ¬writesReg i k → t.reg k = s.reg k) ∧
    (∀ a, ¬(s.i.toNat ≤ a ∧ a < s.i.toNat + storedBytes i) →
      Memory.read t.mem a = Memory.read s.mem a)

/-- R128: every fault is precise. For the four faults of instructions that is the spec's decision D10 (log entry
8). -/
def Obligations.FaultsArePrecise : Prop :=
  ∀ s t, step s = .next t → s.run = .running → t.run = .faulted →
    (∃ keys rnd, s.nextTransaction = .step keys rnd) ∧ t.faultCause ≠ .none ∧ t.pc = s.pc ∧
    agreeOutside (.status :: modelParts) s t

/-- R129, the spec's decision D11 (log entry 8): FAULTED is absorbing under Step and Tick, and left only by
Reset and Load, which reinitialise all state. -/
def Obligations.FaultedStays : Prop :=
  ∀ s t, s.run = .faulted → step s = .next t →
    ((∃ keys rnd, s.nextTransaction = .step keys rnd) → sameCore s t) ∧
    (s.nextTransaction = .tick → agreeOutside ([.delay, .sound] ++ modelParts) s t) ∧
    (s.nextTransaction = .reset → t.run = .running ∧ sameCore State.reset t) ∧
    (∀ image, s.nextTransaction = .load image →
      t.run = .running ∧ agreeOutside (.memory :: modelParts) State.reset t)

/-- R123 to R126, R127: which instruction takes which fault, when, and what it records. These four faults are
the spec's decisions D5 to D8 (log entry 8). -/
def Obligations.FaultCausesOfInstructions : Prop :=
  ∀ (i : Instr) (s t : State), exec i s = .next t → s.run = .running → t.run = .faulted →
    (∃ nnn, i = .call nnn ∧ s.sp = 15 ∧ t.faultCause = .stackOverflow ∧ t.faultInfo = s.pc) ∨
    (i = .ret ∧ s.sp = 0 ∧ t.faultCause = .stackUnderflow ∧ t.faultInfo = s.pc) ∨
    ((∃ x y n, i = .drw x y n ∧ n ≠ 0 ∧ 0xFFF < s.i.toNat + n.toNat - 1) ∧
      t.faultCause = .memOutOfBounds ∧ t.faultInfo = firstBeyond s.i) ∨
    ((∃ x, i = .ldBVx x) ∧ 0xFFF < s.i.toNat + 2 ∧
      t.faultCause = .memOutOfBounds ∧ t.faultInfo = firstBeyond s.i) ∨
    ((∃ x, (i = .ldMemVx x ∨ i = .ldVxMem x) ∧ 0xFFF < s.i.toNat + x.toNat) ∧
      t.faultCause = .memOutOfBounds ∧ t.faultInfo = firstBeyond s.i) ∨
    ((∃ x, (i = .skp x ∨ i = .sknp x) ∧ 15 < (s.reg x).toNat ∧
      t.faultInfo.toNat = (s.reg x).toNat) ∧ t.faultCause = .keyIndexOutOfRange)

/-- R20, the spec's decision D9 (log entry 8): the codes of the status fields, all different; 7 is never
written. -/
def Obligations.StatusFieldCodes : Prop :=
  RunState.running.bit = 0 ∧ RunState.faulted.bit = 1 ∧
    FaultCause.none.code = 0 ∧ FaultCause.pcOutOfBounds.code = 1 ∧
    FaultCause.unimplementedOpcode.code = 2 ∧ FaultCause.stackOverflow.code = 3 ∧
    FaultCause.stackUnderflow.code = 4 ∧ FaultCause.memOutOfBounds.code = 5 ∧
    FaultCause.keyIndexOutOfRange.code = 6 ∧ ∀ c : FaultCause, c.code ≠ 7

/-- R22, with the spec's decision D22 (log entry 8): only Cxnn reads the random byte. -/
def Obligations.RandomByteReadByRndAlone : Prop :=
  ∀ (i : Instr) (s t : State) (r : Byte), (∀ x nn, i ≠ .rnd x nn) → exec i s = .next t →
    exec i (s.sample s.keys r) = .next (t.sample s.keys r)

/-- R21, with the spec's decision D2 (log entry 8): only Ex9E, ExA1 and Fx0A read the key vector. -/
def Obligations.KeysReadByThreeAlone : Prop :=
  ∀ (i : Instr) (s t : State) (ks : BitVec 16),
    (∀ x, i ≠ .skp x ∧ i ≠ .sknp x ∧ i ≠ .ldVxK x) → exec i s = .next t →
    exec i (s.sample ks s.rnd) = .next (t.sample ks s.rnd)

/-! ### Display (40_display.md) -/

/-- R70: 00E0. -/
def Obligations.ClearScreen : Prop :=
  (∀ w, w &&& 0xFFFF = 0x00E0 ↔ decodeWord w = some .cls) ∧
  ∀ s, ∃ t, exec .cls s = .next t ∧ (∀ r c, r < 32 → c < 64 → t.cell r c = false) ∧
    t.pc = s.pc + 2 ∧ agreeOutside [.frame, .pc] s t

/-- R71: Dxyn: each cell of the grid a 1 of the sprite lands on is inverted and no other; VF says whether one of
them was on before; a sprite that leaves memory faults and draws nothing. The fault is the spec's decisions D7,
D25 (log entry 8). -/
def Obligations.DrawSprite : Prop :=
  encodedAs 0xF000 0xD000 (fun w => .drw (fieldX w) (fieldY w) (fieldN w)) ∧
  ∀ x y n s,
    (n = 0 ∨ s.i.toNat + n.toNat - 1 ≤ 0xFFF → ∃ t, exec (.drw x y n) s = .next t ∧
      (∀ r c, r < 32 → c < 64 →
        (spriteHits s x y n r c → t.cell r c = !s.cell r c) ∧
        (¬spriteHits s x y n r c → t.cell r c = s.cell r c)) ∧
      ((∃ r c, r < 32 ∧ c < 64 ∧ spriteHits s x y n r c ∧ s.cell r c = true) → t.reg 0xF = 0x01) ∧
      ((¬∃ r c, r < 32 ∧ c < 64 ∧ spriteHits s x y n r c ∧ s.cell r c = true) → t.reg 0xF = 0x00) ∧
      t.pc = s.pc + 2 ∧ (∀ k, k ≠ 0xF → t.reg k = s.reg k) ∧
      agreeOutside [.frame, .regs, .pc] s t) ∧
    (n ≠ 0 → 0xFFF < s.i.toNat + n.toNat - 1 →
      faultsWith s (exec (.drw x y n) s) .memOutOfBounds (firstBeyond s.i))

/-- From R71 and log entry 13: a sprite drawn twice at the same place restores the framebuffer (the first law of
R72 (a), which the spec marks as derived), and the second draw reports exactly whether a 1 of the sprite lands
on a cell of the grid that was off before the first. That VF clause departs from the wording of R72 (a), as log
entry 13 says. Neither coordinate register is VF. On an empty framebuffer that is whether a 1 lands inside the
grid at all (C11, S6). -/
def Obligations.DrawingTwiceRestores : Prop :=
  ∀ x y n s, x ≠ 0xF → y ≠ 0xF → (n = 0 ∨ s.i.toNat + n.toNat - 1 ≤ 0xFFF) →
    ∃ t u, exec (.drw x y n) s = .next t ∧ exec (.drw x y n) t = .next u ∧
      (∀ r c, u.cell r c = s.cell r c) ∧
      ((∃ r c, r < 32 ∧ c < 64 ∧ spriteHits s x y n r c ∧ s.cell r c = false) →
        u.reg 0xF = 0x01) ∧
      ((¬∃ r c, r < 32 ∧ c < 64 ∧ spriteHits s x y n r c ∧ s.cell r c = false) →
        u.reg 0xF = 0x00)

/-- R72 (a) AS WORDED, for every framebuffer: "the second draw sets VF = 1 if and only if at least one sprite
bit that is 1 lands inside the grid". Expected to FAIL: by R71, where every cell the sprite covers was on before
the first draw, the first turns them off and the second collides with nothing (log entry 13). -/
def Obligations.SecondDrawFlagAsWorded : Prop :=
  ∀ x y n s t u, x ≠ 0xF → y ≠ 0xF → (n = 0 ∨ s.i.toNat + n.toNat - 1 ≤ 0xFFF) →
    exec (.drw x y n) s = .next t → exec (.drw x y n) t = .next u →
    (u.reg 0xF = 0x01 ↔ ∃ r c, r < 32 ∧ c < 64 ∧ spriteHits s x y n r c)

/-- R72 (c), which the spec marks as derived: a draw changes as many cells as the sprite has 1 bits that land
inside the grid. -/
def Obligations.DrawChangesOneCellPerBit : Prop :=
  ∀ x y n s t, (n = 0 ∨ s.i.toNat + n.toNat - 1 ≤ 0xFFF) → exec (.drw x y n) s = .next t →
    Set.ncard {p : Nat × Nat | t.cell p.1 p.2 ≠ s.cell p.1 p.2} =
      Set.ncard {q : Nat × Nat | q.1 < n.toNat ∧ q.2 < 8 ∧
        (s.reg y).toNat + q.1 ≤ 31 ∧ (s.reg x).toNat + q.2 ≤ 63 ∧
        (Memory.read s.mem (s.i.toNat + q.1)).getLsbD (7 - q.2) = true}

/-! ### Control flow (41_control_flow.md) -/

/-- R75: 00EE; with R124 its fault, the spec's decision D6 (log entry 8). -/
def Obligations.ReturnFromSubroutine : Prop :=
  (∀ w, w &&& 0xFFFF = 0x00EE ↔ decodeWord w = some .ret) ∧
  ∀ s,
    (s.sp ≠ 0 → ∃ t, exec .ret s = .next t ∧ t.sp.toNat + 1 = s.sp.toNat ∧
      t.pc = s.stackAt t.sp + 2 ∧ agreeOutside [.sp, .pc] s t) ∧
    (s.sp = 0 → faultsWith s (exec .ret s) .stackUnderflow s.pc)

/-- R76: 1nnn. -/
def Obligations.JumpToAddress : Prop :=
  encodedAs 0xF000 0x1000 (fun w => .jp (fieldNNN w)) ∧
  ∀ nnn s, ∃ t, exec (.jp nnn) s = .next t ∧ t.pc.toNat = nnn.toNat ∧ agreeOutside [.pc] s t

/-- R77: 2nnn; with R123 its fault, the spec's decision D5 (log entry 8). -/
def Obligations.CallSubroutine : Prop :=
  encodedAs 0xF000 0x2000 (fun w => .call (fieldNNN w)) ∧
  ∀ nnn s,
    (s.sp ≠ 15 → ∃ t, exec (.call nnn) s = .next t ∧ t.stackAt s.sp = s.pc ∧
      (∀ k, k ≠ s.sp → t.stackAt k = s.stackAt k) ∧ t.sp.toNat = s.sp.toNat + 1 ∧
      t.pc.toNat = nnn.toNat ∧ agreeOutside [.stack, .sp, .pc] s t) ∧
    (s.sp = 15 → faultsWith s (exec (.call nnn) s) .stackOverflow s.pc)

/-- R75, R77: a return lands on the instruction after the call and leaves sp as it was before the call. -/
def Obligations.CallThenReturn : Prop :=
  ∀ nnn s, s.sp ≠ 15 → ∃ t u, exec (.call nnn) s = .next t ∧ exec .ret t = .next u ∧
    u.pc = s.pc + 2 ∧ u.sp = s.sp ∧ (∀ k, k ≠ s.sp → u.stackAt k = s.stackAt k) ∧
    agreeOutside [.stack, .pc] s u

/-- R78, R79: 3xnn and 4xnn. -/
def Obligations.SkipOnImmediate : Prop :=
  encodedAs 0xF000 0x3000 (fun w => .seImm (fieldX w) (fieldNN w)) ∧
  encodedAs 0xF000 0x4000 (fun w => .sneImm (fieldX w) (fieldNN w)) ∧
  ∀ x nn s,
    (∃ t, exec (.seImm x nn) s = .next t ∧ (s.reg x = nn → t.pc = s.pc + 4) ∧
      (s.reg x ≠ nn → t.pc = s.pc + 2) ∧ agreeOutside [.pc] s t) ∧
    (∃ t, exec (.sneImm x nn) s = .next t ∧ (s.reg x ≠ nn → t.pc = s.pc + 4) ∧
      (s.reg x = nn → t.pc = s.pc + 2) ∧ agreeOutside [.pc] s t)

/-- R80, R81: 5xy0 and 9xy0. -/
def Obligations.SkipOnRegisters : Prop :=
  encodedAs 0xF00F 0x5000 (fun w => .seReg (fieldX w) (fieldY w)) ∧
  encodedAs 0xF00F 0x9000 (fun w => .sneReg (fieldX w) (fieldY w)) ∧
  ∀ x y s,
    (∃ t, exec (.seReg x y) s = .next t ∧ (s.reg x = s.reg y → t.pc = s.pc + 4) ∧
      (s.reg x ≠ s.reg y → t.pc = s.pc + 2) ∧ agreeOutside [.pc] s t) ∧
    (∃ t, exec (.sneReg x y) s = .next t ∧ (s.reg x ≠ s.reg y → t.pc = s.pc + 4) ∧
      (s.reg x = s.reg y → t.pc = s.pc + 2) ∧ agreeOutside [.pc] s t)

/-- R82: Bnnn: the offset is V0, and the sum is not reduced. That pc can hold the unreduced sum, above 0xFFF, is
the spec's decision D12 (log entry 8). -/
def Obligations.JumpWithOffset : Prop :=
  encodedAs 0xF000 0xB000 (fun w => .jpV0 (fieldNNN w)) ∧
  ∀ nnn s, ∃ t, exec (.jpV0 nnn) s = .next t ∧ t.pc.toNat = nnn.toNat + (s.reg 0).toNat ∧
    agreeOutside [.pc] s t

/-- R62, R76: a 1nnn whose target is its own address leaves the core as it is at every Step. -/
def Obligations.JumpToItselfParks : Prop :=
  ∀ (s : State) (keys : BitVec 16) (rnd : Byte) (nnn : Addr12), s.nextTransaction = .step keys rnd →
    s.run = .running → s.pc.toNat = nnn.toNat → s.pc.toNat < 0x0FFF →
    Memory.read s.mem s.pc.toNat ++ Memory.read s.mem (s.pc.toNat + 1) = encode (.jp nnn) →
    ∃ t, step s = .next t ∧ sameCore s t

/-! ### Registers and the ALU (42_register_alu.md) -/

/-- R86: 6xnn. -/
def Obligations.LoadImmediate : Prop :=
  encodedAs 0xF000 0x6000 (fun w => .ldImm (fieldX w) (fieldNN w)) ∧
  ∀ x nn s, ∃ t, exec (.ldImm x nn) s = .next t ∧ t.reg x = nn ∧ t.pc = s.pc + 2 ∧
    (∀ k, k ≠ x → t.reg k = s.reg k) ∧ agreeOutside [.regs, .pc] s t

/-- R87: 7xnn: modulo 256, and no flag. -/
def Obligations.AddImmediate : Prop :=
  encodedAs 0xF000 0x7000 (fun w => .addImm (fieldX w) (fieldNN w)) ∧
  ∀ x nn s, ∃ t, exec (.addImm x nn) s = .next t ∧
    (t.reg x).toNat = ((s.reg x).toNat + nn.toNat) % 256 ∧ t.pc = s.pc + 2 ∧
    (∀ k, k ≠ x → t.reg k = s.reg k) ∧ agreeOutside [.regs, .pc] s t

/-- R88: 8xy0. -/
def Obligations.CopyRegister : Prop :=
  encodedAs 0xF00F 0x8000 (fun w => .ldReg (fieldX w) (fieldY w)) ∧
  ∀ x y s, ∃ t, exec (.ldReg x y) s = .next t ∧ t.reg x = s.reg y ∧ t.pc = s.pc + 2 ∧
    (∀ k, k ≠ x → t.reg k = s.reg k) ∧ agreeOutside [.regs, .pc] s t

/-- R89, R90, R91: 8xy1, 8xy2, 8xy3, bit by bit; VF is written only as the destination. The sub-opcodes and the
unchanged VF are the spec's decisions D14, D15 (log entry 8). -/
def Obligations.BitwiseOperations : Prop :=
  encodedAs 0xF00F 0x8001 (fun w => .orReg (fieldX w) (fieldY w)) ∧
  encodedAs 0xF00F 0x8002 (fun w => .andReg (fieldX w) (fieldY w)) ∧
  encodedAs 0xF00F 0x8003 (fun w => .xorReg (fieldX w) (fieldY w)) ∧
  ∀ x y s,
    (∃ t, exec (.orReg x y) s = .next t ∧
      (∀ b, (t.reg x).getLsbD b = ((s.reg x).getLsbD b || (s.reg y).getLsbD b)) ∧
      t.pc = s.pc + 2 ∧ (∀ k, k ≠ x → t.reg k = s.reg k) ∧ agreeOutside [.regs, .pc] s t) ∧
    (∃ t, exec (.andReg x y) s = .next t ∧
      (∀ b, (t.reg x).getLsbD b = ((s.reg x).getLsbD b && (s.reg y).getLsbD b)) ∧
      t.pc = s.pc + 2 ∧ (∀ k, k ≠ x → t.reg k = s.reg k) ∧ agreeOutside [.regs, .pc] s t) ∧
    (∃ t, exec (.xorReg x y) s = .next t ∧
      (∀ b, (t.reg x).getLsbD b = ((s.reg x).getLsbD b ^^ (s.reg y).getLsbD b)) ∧
      t.pc = s.pc + 2 ∧ (∀ k, k ≠ x → t.reg k = s.reg k) ∧ agreeOutside [.regs, .pc] s t)

/-- R92: 8xy4; the flag is what VF holds, whatever `x` (R98). The spec's decisions D14, D17, D18 (log entry 8).
-/
def Obligations.AddWithCarryOut : Prop :=
  encodedAs 0xF00F 0x8004 (fun w => .addReg (fieldX w) (fieldY w)) ∧
  ∀ x y s, ∃ t, exec (.addReg x y) s = .next t ∧
    (x ≠ 0xF → (t.reg x).toNat = ((s.reg x).toNat + (s.reg y).toNat) % 256) ∧
    t.reg 0xF = (if 255 < (s.reg x).toNat + (s.reg y).toNat then 0x01 else 0x00) ∧
    t.pc = s.pc + 2 ∧ (∀ k, k ≠ x → k ≠ 0xF → t.reg k = s.reg k) ∧
    agreeOutside [.regs, .pc] s t

/-- R93, R95: 8xy5 and 8xy7; VF is 1 when there is no borrow, whatever `x` (R98). The spec's decisions D14, D17,
D18 (log entry 8). -/
def Obligations.SubtractWithNoBorrowFlag : Prop :=
  encodedAs 0xF00F 0x8005 (fun w => .subReg (fieldX w) (fieldY w)) ∧
  encodedAs 0xF00F 0x8007 (fun w => .subnReg (fieldX w) (fieldY w)) ∧
  ∀ x y s,
    (∃ t, exec (.subReg x y) s = .next t ∧
      (x ≠ 0xF → ((t.reg x).toNat : Int) = ((s.reg x).toNat - (s.reg y).toNat : Int) % 256) ∧
      t.reg 0xF = (if (s.reg y).toNat ≤ (s.reg x).toNat then 0x01 else 0x00) ∧
      t.pc = s.pc + 2 ∧ (∀ k, k ≠ x → k ≠ 0xF → t.reg k = s.reg k) ∧
      agreeOutside [.regs, .pc] s t) ∧
    (∃ t, exec (.subnReg x y) s = .next t ∧
      (x ≠ 0xF → ((t.reg x).toNat : Int) = ((s.reg y).toNat - (s.reg x).toNat : Int) % 256) ∧
      t.reg 0xF = (if (s.reg x).toNat ≤ (s.reg y).toNat then 0x01 else 0x00) ∧
      t.pc = s.pc + 2 ∧ (∀ k, k ≠ x → k ≠ 0xF → t.reg k = s.reg k) ∧
      agreeOutside [.regs, .pc] s t)

/-- R94, R96: 8xy6 and 8xyE shift V[y] into V[x]; VF is the bit shifted out, whatever `x` (R98). The spec's
decisions D14, D16, D17 (log entry 8). -/
def Obligations.ShiftByOne : Prop :=
  encodedAs 0xF00F 0x8006 (fun w => .shr (fieldX w) (fieldY w)) ∧
  encodedAs 0xF00F 0x800E (fun w => .shl (fieldX w) (fieldY w)) ∧
  ∀ x y s,
    (∃ t, exec (.shr x y) s = .next t ∧
      (x ≠ 0xF → (t.reg x).toNat = (s.reg y).toNat / 2) ∧
      t.reg 0xF = (if (s.reg y).getLsbD 0 then 0x01 else 0x00) ∧
      t.pc = s.pc + 2 ∧ (∀ k, k ≠ x → k ≠ 0xF → t.reg k = s.reg k) ∧
      agreeOutside [.regs, .pc] s t) ∧
    (∃ t, exec (.shl x y) s = .next t ∧
      (x ≠ 0xF → (t.reg x).toNat = (s.reg y).toNat * 2 % 256) ∧
      t.reg 0xF = (if (s.reg y).getLsbD 7 then 0x01 else 0x00) ∧
      t.pc = s.pc + 2 ∧ (∀ k, k ≠ x → k ≠ 0xF → t.reg k = s.reg k) ∧
      agreeOutside [.regs, .pc] s t)

/-- R98 (b), the spec's decision D17 (log entry 8): with `x = F` the flag is what VF ends with, and the result
is lost: VF is 0 or 1 and no other register is written. -/
def Obligations.FlagIsWrittenLast : Prop :=
  ∀ y s, ∀ i ∈ [Instr.addReg 0xF y, .subReg 0xF y, .shr 0xF y, .subnReg 0xF y, .shl 0xF y],
    ∃ t, exec i s = .next t ∧ (t.reg 0xF = 0x00 ∨ t.reg 0xF = 0x01) ∧
      (∀ k, k ≠ 0xF → t.reg k = s.reg k) ∧ t.pc = s.pc + 2 ∧ agreeOutside [.regs, .pc] s t

/-- R97: Cxnn. That the random byte is the input sampled for the Step, whatever it is, is the spec's decision
D22 (log entry 8); that it stands in State is the model's (log entry 1). -/
def Obligations.RandomMasked : Prop :=
  encodedAs 0xF000 0xC000 (fun w => .rnd (fieldX w) (fieldNN w)) ∧
  ∀ x nn s, ∃ t, exec (.rnd x nn) s = .next t ∧
    (∀ b, (t.reg x).getLsbD b = (s.rnd.getLsbD b && nn.getLsbD b)) ∧ t.pc = s.pc + 2 ∧
    (∀ k, k ≠ x → t.reg k = s.reg k) ∧ agreeOutside [.regs, .pc] s t

/-! ### Index register and memory (43_index_memory.md) -/

/-- R100: Annn. -/
def Obligations.LoadIndex : Prop :=
  encodedAs 0xF000 0xA000 (fun w => .ldI (fieldNNN w)) ∧
  ∀ nnn s, ∃ t, exec (.ldI nnn) s = .next t ∧ t.i.toNat = nnn.toNat ∧ t.pc = s.pc + 2 ∧
    agreeOutside [.index, .pc] s t

/-- R101: Fx1E: modulo 65536, not 4096, and VF is not written, the spec's decision D19 (log entry 8). -/
def Obligations.AddToIndex : Prop :=
  encodedAs 0xF0FF 0xF01E (fun w => .addIVx (fieldX w)) ∧
  ∀ x s, ∃ t, exec (.addIVx x) s = .next t ∧
    t.i.toNat = (s.i.toNat + (s.reg x).toNat) % 65536 ∧ t.pc = s.pc + 2 ∧
    agreeOutside [.index, .pc] s t

/-- R102: Fx29: the whole byte times five, the spec's decision D20 (log entry 8). -/
def Obligations.PointAtGlyph : Prop :=
  encodedAs 0xF0FF 0xF029 (fun w => .ldFVx (fieldX w)) ∧
  ∀ x s, ∃ t, exec (.ldFVx x) s = .next t ∧ t.i.toNat = (s.reg x).toNat * 5 ∧ t.pc = s.pc + 2 ∧
    agreeOutside [.index, .pc] s t

/-- R103: Fx33: three bytes at I, or the fault and no byte. The fault is the spec's decisions D7, D10 (log entry
8). -/
def Obligations.StoreDecimalDigits : Prop :=
  encodedAs 0xF0FF 0xF033 (fun w => .ldBVx (fieldX w)) ∧
  ∀ x s,
    (s.i.toNat + 2 ≤ 0xFFF → ∃ t, exec (.ldBVx x) s = .next t ∧
      (Memory.read t.mem s.i.toNat).toNat = (s.reg x).toNat / 100 ∧
      (Memory.read t.mem (s.i.toNat + 1)).toNat = (s.reg x).toNat / 10 % 10 ∧
      (Memory.read t.mem (s.i.toNat + 2)).toNat = (s.reg x).toNat % 10 ∧
      (∀ a, ¬(s.i.toNat ≤ a ∧ a ≤ s.i.toNat + 2) →
        Memory.read t.mem a = Memory.read s.mem a) ∧
      t.pc = s.pc + 2 ∧ agreeOutside [.memory, .pc] s t) ∧
    (0xFFF < s.i.toNat + 2 →
      faultsWith s (exec (.ldBVx x) s) .memOutOfBounds (firstBeyond s.i))

/-- R104: Fx55: x + 1 bytes at I, then I advanced; or the fault and no byte. The fault is the spec's decisions
D7, D10, D32 (log entry 8). -/
def Obligations.StoreRegisters : Prop :=
  encodedAs 0xF0FF 0xF055 (fun w => .ldMemVx (fieldX w)) ∧
  ∀ x s,
    (s.i.toNat + x.toNat ≤ 0xFFF → ∃ t, exec (.ldMemVx x) s = .next t ∧
      (∀ k : RegIdx, k.toNat ≤ x.toNat → Memory.read t.mem (s.i.toNat + k.toNat) = s.reg k) ∧
      (∀ a, ¬(s.i.toNat ≤ a ∧ a ≤ s.i.toNat + x.toNat) →
        Memory.read t.mem a = Memory.read s.mem a) ∧
      t.i.toNat = s.i.toNat + x.toNat + 1 ∧ t.pc = s.pc + 2 ∧
      agreeOutside [.memory, .index, .pc] s t) ∧
    (0xFFF < s.i.toNat + x.toNat →
      faultsWith s (exec (.ldMemVx x) s) .memOutOfBounds (firstBeyond s.i))

/-- R105: Fx65: V[0] to V[x] from I, then I advanced; registers above V[x] are not touched; or the fault and no
register. The fault is the spec's decisions D7, D10, D32 (log entry 8). -/
def Obligations.LoadRegisters : Prop :=
  encodedAs 0xF0FF 0xF065 (fun w => .ldVxMem (fieldX w)) ∧
  ∀ x s,
    (s.i.toNat + x.toNat ≤ 0xFFF → ∃ t, exec (.ldVxMem x) s = .next t ∧
      (∀ k : RegIdx, k.toNat ≤ x.toNat → t.reg k = Memory.read s.mem (s.i.toNat + k.toNat)) ∧
      (∀ k : RegIdx, x.toNat < k.toNat → t.reg k = s.reg k) ∧
      t.i.toNat = s.i.toNat + x.toNat + 1 ∧ t.pc = s.pc + 2 ∧
      agreeOutside [.regs, .index, .pc] s t) ∧
    (0xFFF < s.i.toNat + x.toNat →
      faultsWith s (exec (.ldVxMem x) s) .memOutOfBounds (firstBeyond s.i))

/-- R42 (which the spec marks as derived): two bytes that Fx55 stores are what a fetch at their address reads
next. -/
def Obligations.StoresAreFetched : Prop :=
  ∀ (x : RegIdx) (s : State) (k : RegIdx), s.i.toNat + x.toNat ≤ 0xFFF → k.toNat < x.toNat →
    ∃ t, exec (.ldMemVx x) s = .next t ∧
      ∀ p : Word, p.toNat = s.i.toNat + k.toNat →
        (t.setPc p).fetchWord = some (s.reg k ++ s.reg (k + 1))

/-! ### Keypad and timers (44_keypad_timers.md) -/

/-- R110, R111: Ex9E and ExA1; with R126 their fault, the spec's decision D8 (log entry 8). -/
def Obligations.SkipOnKey : Prop :=
  encodedAs 0xF0FF 0xE09E (fun w => .skp (fieldX w)) ∧
  encodedAs 0xF0FF 0xE0A1 (fun w => .sknp (fieldX w)) ∧
  ∀ x s,
    ((s.reg x).toNat ≤ 15 →
      (∃ t, exec (.skp x) s = .next t ∧
        (s.keys.getLsbD (s.reg x).toNat = true → t.pc = s.pc + 4) ∧
        (s.keys.getLsbD (s.reg x).toNat = false → t.pc = s.pc + 2) ∧ agreeOutside [.pc] s t) ∧
      (∃ t, exec (.sknp x) s = .next t ∧
        (s.keys.getLsbD (s.reg x).toNat = false → t.pc = s.pc + 4) ∧
        (s.keys.getLsbD (s.reg x).toNat = true → t.pc = s.pc + 2) ∧ agreeOutside [.pc] s t)) ∧
    (15 < (s.reg x).toNat →
      faultsWith s (exec (.skp x) s) .keyIndexOutOfRange ((s.reg x).setWidth 16) ∧
      faultsWith s (exec (.sknp x) s) .keyIndexOutOfRange ((s.reg x).setWidth 16))

/-- R112: Fx07 reads DT, the spec's decision D23 (log entry 8). -/
def Obligations.ReadDelayTimer : Prop :=
  encodedAs 0xF0FF 0xF007 (fun w => .ldVxDt (fieldX w)) ∧
  ∀ x s, ∃ t, exec (.ldVxDt x) s = .next t ∧ t.reg x = s.dt ∧ t.pc = s.pc + 2 ∧
    (∀ k, k ≠ x → t.reg k = s.reg k) ∧ agreeOutside [.regs, .pc] s t

/-- R113: Fx0A: with no key down nothing changes; else the smallest key that is down, the spec's decision D21
(log entry 8). -/
def Obligations.WaitForKey : Prop :=
  encodedAs 0xF0FF 0xF00A (fun w => .ldVxK (fieldX w)) ∧
  ∀ x s,
    (s.keys = 0x0000 → exec (.ldVxK x) s = .next s) ∧
    (s.keys ≠ 0x0000 → ∃ k t, k < 16 ∧ s.keys.getLsbD k = true ∧
      (∀ j, j < k → s.keys.getLsbD j = false) ∧ exec (.ldVxK x) s = .next t ∧
      (t.reg x).toNat = k ∧ t.pc = s.pc + 2 ∧ (∀ k, k ≠ x → t.reg k = s.reg k) ∧
      agreeOutside [.regs, .pc] s t)

/-- R114, R115: Fx15 writes DT, the spec's decision D23 (log entry 8), and Fx18 writes ST. -/
def Obligations.WriteTimers : Prop :=
  encodedAs 0xF0FF 0xF015 (fun w => .ldDtVx (fieldX w)) ∧
  encodedAs 0xF0FF 0xF018 (fun w => .ldStVx (fieldX w)) ∧
  ∀ x s,
    (∃ t, exec (.ldDtVx x) s = .next t ∧ t.dt = s.reg x ∧ t.pc = s.pc + 2 ∧
      agreeOutside [.delay, .pc] s t) ∧
    (∃ t, exec (.ldStVx x) s = .next t ∧ t.st = s.reg x ∧ t.pc = s.pc + 2 ∧
      agreeOutside [.sound, .pc] s t)

/-! ### Interleavings (R134) -/

/-- R134: any number of Ticks may stand between two Steps: `n` in a row take `n` from each timer, down to 0, and
change nothing else, in any run state. That FAULTED is included is the spec's decision D24 (log entry 8); that
transactions already fixed stand in `schedule` is the model's (log entry 2). -/
def Obligations.AnyNumberOfTicks : Prop :=
  ∀ (n : Nat) (s : State) (rest : List Transaction), s.schedule = List.replicate n .tick ++ rest →
    ∃ t, s.steps n = some t ∧ t.schedule = rest ∧ t.draws = s.draws ∧
      t.dt.toNat = s.dt.toNat - n ∧ t.st.toNat = s.st.toNat - n ∧
      agreeOutside [.delay, .sound, .queue] s t
end

