-- ==== Sys2Proof/Laws/State.lean ====
section
/-! SUPPORT. One lemma per field and accessor of State for each update, so that no proof unfolds a record
update; the derived updates reduce to these. -/

namespace Sys2Proof.Machine

/-! ### setReg -/

@[simp] theorem State.setReg_v (s : State) (x : RegIdx) (w : Byte) :
    (s.setReg x w).v = s.v.set x.toNat w x.isLt := rfl

@[simp] theorem State.setReg_i (s : State) (x : RegIdx) (w : Byte) :
    (s.setReg x w).i = s.i := rfl

@[simp] theorem State.setReg_pc (s : State) (x : RegIdx) (w : Byte) :
    (s.setReg x w).pc = s.pc := rfl

@[simp] theorem State.setReg_stack (s : State) (x : RegIdx) (w : Byte) :
    (s.setReg x w).stack = s.stack := rfl

@[simp] theorem State.setReg_sp (s : State) (x : RegIdx) (w : Byte) :
    (s.setReg x w).sp = s.sp := rfl

@[simp] theorem State.setReg_dt (s : State) (x : RegIdx) (w : Byte) :
    (s.setReg x w).dt = s.dt := rfl

@[simp] theorem State.setReg_st (s : State) (x : RegIdx) (w : Byte) :
    (s.setReg x w).st = s.st := rfl

@[simp] theorem State.setReg_fb (s : State) (x : RegIdx) (w : Byte) :
    (s.setReg x w).fb = s.fb := rfl

@[simp] theorem State.setReg_mem (s : State) (x : RegIdx) (w : Byte) :
    (s.setReg x w).mem = s.mem := rfl

@[simp] theorem State.setReg_run (s : State) (x : RegIdx) (w : Byte) :
    (s.setReg x w).run = s.run := rfl

@[simp] theorem State.setReg_faultCause (s : State) (x : RegIdx) (w : Byte) :
    (s.setReg x w).faultCause = s.faultCause := rfl

@[simp] theorem State.setReg_faultInfo (s : State) (x : RegIdx) (w : Byte) :
    (s.setReg x w).faultInfo = s.faultInfo := rfl

@[simp] theorem State.setReg_keys (s : State) (x : RegIdx) (w : Byte) :
    (s.setReg x w).keys = s.keys := rfl

@[simp] theorem State.setReg_rnd (s : State) (x : RegIdx) (w : Byte) :
    (s.setReg x w).rnd = s.rnd := rfl

@[simp] theorem State.setReg_schedule (s : State) (x : RegIdx) (w : Byte) :
    (s.setReg x w).schedule = s.schedule := rfl

@[simp] theorem State.setReg_draws (s : State) (x : RegIdx) (w : Byte) :
    (s.setReg x w).draws = s.draws := rfl

@[simp] theorem State.setReg_stackAt (s : State) (x : RegIdx) (w : Byte) (k : BitVec 4) :
    (s.setReg x w).stackAt k = s.stackAt k := rfl

@[simp] theorem State.setReg_cell (s : State) (x : RegIdx) (w : Byte) (r c : Nat) :
    (s.setReg x w).cell r c = s.cell r c := rfl

/-! ### setI -/

@[simp] theorem State.setI_v (s : State) (w : Word) :
    (s.setI w).v = s.v := rfl

@[simp] theorem State.setI_i (s : State) (w : Word) :
    (s.setI w).i = w := rfl

@[simp] theorem State.setI_pc (s : State) (w : Word) :
    (s.setI w).pc = s.pc := rfl

@[simp] theorem State.setI_stack (s : State) (w : Word) :
    (s.setI w).stack = s.stack := rfl

@[simp] theorem State.setI_sp (s : State) (w : Word) :
    (s.setI w).sp = s.sp := rfl

@[simp] theorem State.setI_dt (s : State) (w : Word) :
    (s.setI w).dt = s.dt := rfl

@[simp] theorem State.setI_st (s : State) (w : Word) :
    (s.setI w).st = s.st := rfl

@[simp] theorem State.setI_fb (s : State) (w : Word) :
    (s.setI w).fb = s.fb := rfl

@[simp] theorem State.setI_mem (s : State) (w : Word) :
    (s.setI w).mem = s.mem := rfl

@[simp] theorem State.setI_run (s : State) (w : Word) :
    (s.setI w).run = s.run := rfl

@[simp] theorem State.setI_faultCause (s : State) (w : Word) :
    (s.setI w).faultCause = s.faultCause := rfl

@[simp] theorem State.setI_faultInfo (s : State) (w : Word) :
    (s.setI w).faultInfo = s.faultInfo := rfl

@[simp] theorem State.setI_keys (s : State) (w : Word) :
    (s.setI w).keys = s.keys := rfl

@[simp] theorem State.setI_rnd (s : State) (w : Word) :
    (s.setI w).rnd = s.rnd := rfl

@[simp] theorem State.setI_schedule (s : State) (w : Word) :
    (s.setI w).schedule = s.schedule := rfl

@[simp] theorem State.setI_draws (s : State) (w : Word) :
    (s.setI w).draws = s.draws := rfl

@[simp] theorem State.setI_reg (s : State) (w : Word) (y : RegIdx) :
    (s.setI w).reg y = s.reg y := rfl

@[simp] theorem State.setI_stackAt (s : State) (w : Word) (k : BitVec 4) :
    (s.setI w).stackAt k = s.stackAt k := rfl

@[simp] theorem State.setI_cell (s : State) (w : Word) (r c : Nat) :
    (s.setI w).cell r c = s.cell r c := rfl

/-! ### setPc -/

@[simp] theorem State.setPc_v (s : State) (w : Word) :
    (s.setPc w).v = s.v := rfl

@[simp] theorem State.setPc_i (s : State) (w : Word) :
    (s.setPc w).i = s.i := rfl

@[simp] theorem State.setPc_pc (s : State) (w : Word) :
    (s.setPc w).pc = w := rfl

@[simp] theorem State.setPc_stack (s : State) (w : Word) :
    (s.setPc w).stack = s.stack := rfl

@[simp] theorem State.setPc_sp (s : State) (w : Word) :
    (s.setPc w).sp = s.sp := rfl

@[simp] theorem State.setPc_dt (s : State) (w : Word) :
    (s.setPc w).dt = s.dt := rfl

@[simp] theorem State.setPc_st (s : State) (w : Word) :
    (s.setPc w).st = s.st := rfl

@[simp] theorem State.setPc_fb (s : State) (w : Word) :
    (s.setPc w).fb = s.fb := rfl

@[simp] theorem State.setPc_mem (s : State) (w : Word) :
    (s.setPc w).mem = s.mem := rfl

@[simp] theorem State.setPc_run (s : State) (w : Word) :
    (s.setPc w).run = s.run := rfl

@[simp] theorem State.setPc_faultCause (s : State) (w : Word) :
    (s.setPc w).faultCause = s.faultCause := rfl

@[simp] theorem State.setPc_faultInfo (s : State) (w : Word) :
    (s.setPc w).faultInfo = s.faultInfo := rfl

@[simp] theorem State.setPc_keys (s : State) (w : Word) :
    (s.setPc w).keys = s.keys := rfl

@[simp] theorem State.setPc_rnd (s : State) (w : Word) :
    (s.setPc w).rnd = s.rnd := rfl

@[simp] theorem State.setPc_schedule (s : State) (w : Word) :
    (s.setPc w).schedule = s.schedule := rfl

@[simp] theorem State.setPc_draws (s : State) (w : Word) :
    (s.setPc w).draws = s.draws := rfl

@[simp] theorem State.setPc_reg (s : State) (w : Word) (y : RegIdx) :
    (s.setPc w).reg y = s.reg y := rfl

@[simp] theorem State.setPc_stackAt (s : State) (w : Word) (k : BitVec 4) :
    (s.setPc w).stackAt k = s.stackAt k := rfl

@[simp] theorem State.setPc_cell (s : State) (w : Word) (r c : Nat) :
    (s.setPc w).cell r c = s.cell r c := rfl

/-! ### setDt -/

@[simp] theorem State.setDt_v (s : State) (w : Byte) :
    (s.setDt w).v = s.v := rfl

@[simp] theorem State.setDt_i (s : State) (w : Byte) :
    (s.setDt w).i = s.i := rfl

@[simp] theorem State.setDt_pc (s : State) (w : Byte) :
    (s.setDt w).pc = s.pc := rfl

@[simp] theorem State.setDt_stack (s : State) (w : Byte) :
    (s.setDt w).stack = s.stack := rfl

@[simp] theorem State.setDt_sp (s : State) (w : Byte) :
    (s.setDt w).sp = s.sp := rfl

@[simp] theorem State.setDt_dt (s : State) (w : Byte) :
    (s.setDt w).dt = w := rfl

@[simp] theorem State.setDt_st (s : State) (w : Byte) :
    (s.setDt w).st = s.st := rfl

@[simp] theorem State.setDt_fb (s : State) (w : Byte) :
    (s.setDt w).fb = s.fb := rfl

@[simp] theorem State.setDt_mem (s : State) (w : Byte) :
    (s.setDt w).mem = s.mem := rfl

@[simp] theorem State.setDt_run (s : State) (w : Byte) :
    (s.setDt w).run = s.run := rfl

@[simp] theorem State.setDt_faultCause (s : State) (w : Byte) :
    (s.setDt w).faultCause = s.faultCause := rfl

@[simp] theorem State.setDt_faultInfo (s : State) (w : Byte) :
    (s.setDt w).faultInfo = s.faultInfo := rfl

@[simp] theorem State.setDt_keys (s : State) (w : Byte) :
    (s.setDt w).keys = s.keys := rfl

@[simp] theorem State.setDt_rnd (s : State) (w : Byte) :
    (s.setDt w).rnd = s.rnd := rfl

@[simp] theorem State.setDt_schedule (s : State) (w : Byte) :
    (s.setDt w).schedule = s.schedule := rfl

@[simp] theorem State.setDt_draws (s : State) (w : Byte) :
    (s.setDt w).draws = s.draws := rfl

@[simp] theorem State.setDt_reg (s : State) (w : Byte) (y : RegIdx) :
    (s.setDt w).reg y = s.reg y := rfl

@[simp] theorem State.setDt_stackAt (s : State) (w : Byte) (k : BitVec 4) :
    (s.setDt w).stackAt k = s.stackAt k := rfl

@[simp] theorem State.setDt_cell (s : State) (w : Byte) (r c : Nat) :
    (s.setDt w).cell r c = s.cell r c := rfl

/-! ### setSt -/

@[simp] theorem State.setSt_v (s : State) (w : Byte) :
    (s.setSt w).v = s.v := rfl

@[simp] theorem State.setSt_i (s : State) (w : Byte) :
    (s.setSt w).i = s.i := rfl

@[simp] theorem State.setSt_pc (s : State) (w : Byte) :
    (s.setSt w).pc = s.pc := rfl

@[simp] theorem State.setSt_stack (s : State) (w : Byte) :
    (s.setSt w).stack = s.stack := rfl

@[simp] theorem State.setSt_sp (s : State) (w : Byte) :
    (s.setSt w).sp = s.sp := rfl

@[simp] theorem State.setSt_dt (s : State) (w : Byte) :
    (s.setSt w).dt = s.dt := rfl

@[simp] theorem State.setSt_st (s : State) (w : Byte) :
    (s.setSt w).st = w := rfl

@[simp] theorem State.setSt_fb (s : State) (w : Byte) :
    (s.setSt w).fb = s.fb := rfl

@[simp] theorem State.setSt_mem (s : State) (w : Byte) :
    (s.setSt w).mem = s.mem := rfl

@[simp] theorem State.setSt_run (s : State) (w : Byte) :
    (s.setSt w).run = s.run := rfl

@[simp] theorem State.setSt_faultCause (s : State) (w : Byte) :
    (s.setSt w).faultCause = s.faultCause := rfl

@[simp] theorem State.setSt_faultInfo (s : State) (w : Byte) :
    (s.setSt w).faultInfo = s.faultInfo := rfl

@[simp] theorem State.setSt_keys (s : State) (w : Byte) :
    (s.setSt w).keys = s.keys := rfl

@[simp] theorem State.setSt_rnd (s : State) (w : Byte) :
    (s.setSt w).rnd = s.rnd := rfl

@[simp] theorem State.setSt_schedule (s : State) (w : Byte) :
    (s.setSt w).schedule = s.schedule := rfl

@[simp] theorem State.setSt_draws (s : State) (w : Byte) :
    (s.setSt w).draws = s.draws := rfl

@[simp] theorem State.setSt_reg (s : State) (w : Byte) (y : RegIdx) :
    (s.setSt w).reg y = s.reg y := rfl

@[simp] theorem State.setSt_stackAt (s : State) (w : Byte) (k : BitVec 4) :
    (s.setSt w).stackAt k = s.stackAt k := rfl

@[simp] theorem State.setSt_cell (s : State) (w : Byte) (r c : Nat) :
    (s.setSt w).cell r c = s.cell r c := rfl

/-! ### setFb -/

@[simp] theorem State.setFb_v (s : State) (f : Frame) :
    (s.setFb f).v = s.v := rfl

@[simp] theorem State.setFb_i (s : State) (f : Frame) :
    (s.setFb f).i = s.i := rfl

@[simp] theorem State.setFb_pc (s : State) (f : Frame) :
    (s.setFb f).pc = s.pc := rfl

@[simp] theorem State.setFb_stack (s : State) (f : Frame) :
    (s.setFb f).stack = s.stack := rfl

@[simp] theorem State.setFb_sp (s : State) (f : Frame) :
    (s.setFb f).sp = s.sp := rfl

@[simp] theorem State.setFb_dt (s : State) (f : Frame) :
    (s.setFb f).dt = s.dt := rfl

@[simp] theorem State.setFb_st (s : State) (f : Frame) :
    (s.setFb f).st = s.st := rfl

@[simp] theorem State.setFb_fb (s : State) (f : Frame) :
    (s.setFb f).fb = f := rfl

@[simp] theorem State.setFb_mem (s : State) (f : Frame) :
    (s.setFb f).mem = s.mem := rfl

@[simp] theorem State.setFb_run (s : State) (f : Frame) :
    (s.setFb f).run = s.run := rfl

@[simp] theorem State.setFb_faultCause (s : State) (f : Frame) :
    (s.setFb f).faultCause = s.faultCause := rfl

@[simp] theorem State.setFb_faultInfo (s : State) (f : Frame) :
    (s.setFb f).faultInfo = s.faultInfo := rfl

@[simp] theorem State.setFb_keys (s : State) (f : Frame) :
    (s.setFb f).keys = s.keys := rfl

@[simp] theorem State.setFb_rnd (s : State) (f : Frame) :
    (s.setFb f).rnd = s.rnd := rfl

@[simp] theorem State.setFb_schedule (s : State) (f : Frame) :
    (s.setFb f).schedule = s.schedule := rfl

@[simp] theorem State.setFb_draws (s : State) (f : Frame) :
    (s.setFb f).draws = s.draws := rfl

@[simp] theorem State.setFb_reg (s : State) (f : Frame) (y : RegIdx) :
    (s.setFb f).reg y = s.reg y := rfl

@[simp] theorem State.setFb_stackAt (s : State) (f : Frame) (k : BitVec 4) :
    (s.setFb f).stackAt k = s.stackAt k := rfl

/-! ### setMem -/

@[simp] theorem State.setMem_v (s : State) (m : Memory) :
    (s.setMem m).v = s.v := rfl

@[simp] theorem State.setMem_i (s : State) (m : Memory) :
    (s.setMem m).i = s.i := rfl

@[simp] theorem State.setMem_pc (s : State) (m : Memory) :
    (s.setMem m).pc = s.pc := rfl

@[simp] theorem State.setMem_stack (s : State) (m : Memory) :
    (s.setMem m).stack = s.stack := rfl

@[simp] theorem State.setMem_sp (s : State) (m : Memory) :
    (s.setMem m).sp = s.sp := rfl

@[simp] theorem State.setMem_dt (s : State) (m : Memory) :
    (s.setMem m).dt = s.dt := rfl

@[simp] theorem State.setMem_st (s : State) (m : Memory) :
    (s.setMem m).st = s.st := rfl

@[simp] theorem State.setMem_fb (s : State) (m : Memory) :
    (s.setMem m).fb = s.fb := rfl

@[simp] theorem State.setMem_mem (s : State) (m : Memory) :
    (s.setMem m).mem = m := rfl

@[simp] theorem State.setMem_run (s : State) (m : Memory) :
    (s.setMem m).run = s.run := rfl

@[simp] theorem State.setMem_faultCause (s : State) (m : Memory) :
    (s.setMem m).faultCause = s.faultCause := rfl

@[simp] theorem State.setMem_faultInfo (s : State) (m : Memory) :
    (s.setMem m).faultInfo = s.faultInfo := rfl

@[simp] theorem State.setMem_keys (s : State) (m : Memory) :
    (s.setMem m).keys = s.keys := rfl

@[simp] theorem State.setMem_rnd (s : State) (m : Memory) :
    (s.setMem m).rnd = s.rnd := rfl

@[simp] theorem State.setMem_schedule (s : State) (m : Memory) :
    (s.setMem m).schedule = s.schedule := rfl

@[simp] theorem State.setMem_draws (s : State) (m : Memory) :
    (s.setMem m).draws = s.draws := rfl

@[simp] theorem State.setMem_reg (s : State) (m : Memory) (y : RegIdx) :
    (s.setMem m).reg y = s.reg y := rfl

@[simp] theorem State.setMem_stackAt (s : State) (m : Memory) (k : BitVec 4) :
    (s.setMem m).stackAt k = s.stackAt k := rfl

@[simp] theorem State.setMem_cell (s : State) (m : Memory) (r c : Nat) :
    (s.setMem m).cell r c = s.cell r c := rfl

/-! ### push -/

@[simp] theorem State.push_v (s : State) (w : Word) :
    (s.push w).v = s.v := rfl

@[simp] theorem State.push_i (s : State) (w : Word) :
    (s.push w).i = s.i := rfl

@[simp] theorem State.push_pc (s : State) (w : Word) :
    (s.push w).pc = s.pc := rfl

@[simp] theorem State.push_stack (s : State) (w : Word) :
    (s.push w).stack = s.stack.set s.sp.toNat w s.sp.isLt := rfl

@[simp] theorem State.push_sp (s : State) (w : Word) :
    (s.push w).sp = s.sp + 1 := rfl

@[simp] theorem State.push_dt (s : State) (w : Word) :
    (s.push w).dt = s.dt := rfl

@[simp] theorem State.push_st (s : State) (w : Word) :
    (s.push w).st = s.st := rfl

@[simp] theorem State.push_fb (s : State) (w : Word) :
    (s.push w).fb = s.fb := rfl

@[simp] theorem State.push_mem (s : State) (w : Word) :
    (s.push w).mem = s.mem := rfl

@[simp] theorem State.push_run (s : State) (w : Word) :
    (s.push w).run = s.run := rfl

@[simp] theorem State.push_faultCause (s : State) (w : Word) :
    (s.push w).faultCause = s.faultCause := rfl

@[simp] theorem State.push_faultInfo (s : State) (w : Word) :
    (s.push w).faultInfo = s.faultInfo := rfl

@[simp] theorem State.push_keys (s : State) (w : Word) :
    (s.push w).keys = s.keys := rfl

@[simp] theorem State.push_rnd (s : State) (w : Word) :
    (s.push w).rnd = s.rnd := rfl

@[simp] theorem State.push_schedule (s : State) (w : Word) :
    (s.push w).schedule = s.schedule := rfl

@[simp] theorem State.push_draws (s : State) (w : Word) :
    (s.push w).draws = s.draws := rfl

@[simp] theorem State.push_reg (s : State) (w : Word) (y : RegIdx) :
    (s.push w).reg y = s.reg y := rfl

@[simp] theorem State.push_cell (s : State) (w : Word) (r c : Nat) :
    (s.push w).cell r c = s.cell r c := rfl

/-! ### pop -/

@[simp] theorem State.pop_v (s : State) :
    (s.pop).v = s.v := rfl

@[simp] theorem State.pop_i (s : State) :
    (s.pop).i = s.i := rfl

@[simp] theorem State.pop_pc (s : State) :
    (s.pop).pc = s.pc := rfl

@[simp] theorem State.pop_stack (s : State) :
    (s.pop).stack = s.stack := rfl

@[simp] theorem State.pop_sp (s : State) :
    (s.pop).sp = s.sp - 1 := rfl

@[simp] theorem State.pop_dt (s : State) :
    (s.pop).dt = s.dt := rfl

@[simp] theorem State.pop_st (s : State) :
    (s.pop).st = s.st := rfl

@[simp] theorem State.pop_fb (s : State) :
    (s.pop).fb = s.fb := rfl

@[simp] theorem State.pop_mem (s : State) :
    (s.pop).mem = s.mem := rfl

@[simp] theorem State.pop_run (s : State) :
    (s.pop).run = s.run := rfl

@[simp] theorem State.pop_faultCause (s : State) :
    (s.pop).faultCause = s.faultCause := rfl

@[simp] theorem State.pop_faultInfo (s : State) :
    (s.pop).faultInfo = s.faultInfo := rfl

@[simp] theorem State.pop_keys (s : State) :
    (s.pop).keys = s.keys := rfl

@[simp] theorem State.pop_rnd (s : State) :
    (s.pop).rnd = s.rnd := rfl

@[simp] theorem State.pop_schedule (s : State) :
    (s.pop).schedule = s.schedule := rfl

@[simp] theorem State.pop_draws (s : State) :
    (s.pop).draws = s.draws := rfl

@[simp] theorem State.pop_reg (s : State) (y : RegIdx) :
    (s.pop).reg y = s.reg y := rfl

@[simp] theorem State.pop_stackAt (s : State) (k : BitVec 4) :
    (s.pop).stackAt k = s.stackAt k := rfl

@[simp] theorem State.pop_cell (s : State) (r c : Nat) :
    (s.pop).cell r c = s.cell r c := rfl

/-! ### raise -/

@[simp] theorem State.raise_v (s : State) (cause : FaultCause) (info : Word) :
    (s.raise cause info).v = s.v := rfl

@[simp] theorem State.raise_i (s : State) (cause : FaultCause) (info : Word) :
    (s.raise cause info).i = s.i := rfl

@[simp] theorem State.raise_pc (s : State) (cause : FaultCause) (info : Word) :
    (s.raise cause info).pc = s.pc := rfl

@[simp] theorem State.raise_stack (s : State) (cause : FaultCause) (info : Word) :
    (s.raise cause info).stack = s.stack := rfl

@[simp] theorem State.raise_sp (s : State) (cause : FaultCause) (info : Word) :
    (s.raise cause info).sp = s.sp := rfl

@[simp] theorem State.raise_dt (s : State) (cause : FaultCause) (info : Word) :
    (s.raise cause info).dt = s.dt := rfl

@[simp] theorem State.raise_st (s : State) (cause : FaultCause) (info : Word) :
    (s.raise cause info).st = s.st := rfl

@[simp] theorem State.raise_fb (s : State) (cause : FaultCause) (info : Word) :
    (s.raise cause info).fb = s.fb := rfl

@[simp] theorem State.raise_mem (s : State) (cause : FaultCause) (info : Word) :
    (s.raise cause info).mem = s.mem := rfl

@[simp] theorem State.raise_run (s : State) (cause : FaultCause) (info : Word) :
    (s.raise cause info).run = .faulted := rfl

@[simp] theorem State.raise_faultCause (s : State) (cause : FaultCause) (info : Word) :
    (s.raise cause info).faultCause = cause := rfl

@[simp] theorem State.raise_faultInfo (s : State) (cause : FaultCause) (info : Word) :
    (s.raise cause info).faultInfo = info := rfl

@[simp] theorem State.raise_keys (s : State) (cause : FaultCause) (info : Word) :
    (s.raise cause info).keys = s.keys := rfl

@[simp] theorem State.raise_rnd (s : State) (cause : FaultCause) (info : Word) :
    (s.raise cause info).rnd = s.rnd := rfl

@[simp] theorem State.raise_schedule (s : State) (cause : FaultCause) (info : Word) :
    (s.raise cause info).schedule = s.schedule := rfl

@[simp] theorem State.raise_draws (s : State) (cause : FaultCause) (info : Word) :
    (s.raise cause info).draws = s.draws := rfl

@[simp] theorem State.raise_reg (s : State) (cause : FaultCause) (info : Word) (y : RegIdx) :
    (s.raise cause info).reg y = s.reg y := rfl

@[simp] theorem State.raise_stackAt (s : State) (cause : FaultCause) (info : Word) (k : BitVec 4) :
    (s.raise cause info).stackAt k = s.stackAt k := rfl

@[simp] theorem State.raise_cell (s : State) (cause : FaultCause) (info : Word) (r c : Nat) :
    (s.raise cause info).cell r c = s.cell r c := rfl

/-! ### sample -/

@[simp] theorem State.sample_v (s : State) (ks : BitVec 16) (r : Byte) :
    (s.sample ks r).v = s.v := rfl

@[simp] theorem State.sample_i (s : State) (ks : BitVec 16) (r : Byte) :
    (s.sample ks r).i = s.i := rfl

@[simp] theorem State.sample_pc (s : State) (ks : BitVec 16) (r : Byte) :
    (s.sample ks r).pc = s.pc := rfl

@[simp] theorem State.sample_stack (s : State) (ks : BitVec 16) (r : Byte) :
    (s.sample ks r).stack = s.stack := rfl

@[simp] theorem State.sample_sp (s : State) (ks : BitVec 16) (r : Byte) :
    (s.sample ks r).sp = s.sp := rfl

@[simp] theorem State.sample_dt (s : State) (ks : BitVec 16) (r : Byte) :
    (s.sample ks r).dt = s.dt := rfl

@[simp] theorem State.sample_st (s : State) (ks : BitVec 16) (r : Byte) :
    (s.sample ks r).st = s.st := rfl

@[simp] theorem State.sample_fb (s : State) (ks : BitVec 16) (r : Byte) :
    (s.sample ks r).fb = s.fb := rfl

@[simp] theorem State.sample_mem (s : State) (ks : BitVec 16) (r : Byte) :
    (s.sample ks r).mem = s.mem := rfl

@[simp] theorem State.sample_run (s : State) (ks : BitVec 16) (r : Byte) :
    (s.sample ks r).run = s.run := rfl

@[simp] theorem State.sample_faultCause (s : State) (ks : BitVec 16) (r : Byte) :
    (s.sample ks r).faultCause = s.faultCause := rfl

@[simp] theorem State.sample_faultInfo (s : State) (ks : BitVec 16) (r : Byte) :
    (s.sample ks r).faultInfo = s.faultInfo := rfl

@[simp] theorem State.sample_keys (s : State) (ks : BitVec 16) (r : Byte) :
    (s.sample ks r).keys = ks := rfl

@[simp] theorem State.sample_rnd (s : State) (ks : BitVec 16) (r : Byte) :
    (s.sample ks r).rnd = r := rfl

@[simp] theorem State.sample_schedule (s : State) (ks : BitVec 16) (r : Byte) :
    (s.sample ks r).schedule = s.schedule := rfl

@[simp] theorem State.sample_draws (s : State) (ks : BitVec 16) (r : Byte) :
    (s.sample ks r).draws = s.draws := rfl

@[simp] theorem State.sample_reg (s : State) (ks : BitVec 16) (r : Byte) (y : RegIdx) :
    (s.sample ks r).reg y = s.reg y := rfl

@[simp] theorem State.sample_stackAt (s : State) (ks : BitVec 16) (r : Byte) (k : BitVec 4) :
    (s.sample ks r).stackAt k = s.stackAt k := rfl

@[simp] theorem State.sample_cell (s : State) (ks : BitVec 16) (r : Byte) (i j : Nat) :
    (s.sample ks r).cell i j = s.cell i j := rfl

/-! ### consume -/

@[simp] theorem State.consume_v (s : State) :
    (s.consume).v = s.v := by
  cases h : s.schedule <;> simp [State.consume, h]

@[simp] theorem State.consume_i (s : State) :
    (s.consume).i = s.i := by
  cases h : s.schedule <;> simp [State.consume, h]

@[simp] theorem State.consume_pc (s : State) :
    (s.consume).pc = s.pc := by
  cases h : s.schedule <;> simp [State.consume, h]

@[simp] theorem State.consume_stack (s : State) :
    (s.consume).stack = s.stack := by
  cases h : s.schedule <;> simp [State.consume, h]

@[simp] theorem State.consume_sp (s : State) :
    (s.consume).sp = s.sp := by
  cases h : s.schedule <;> simp [State.consume, h]

@[simp] theorem State.consume_dt (s : State) :
    (s.consume).dt = s.dt := by
  cases h : s.schedule <;> simp [State.consume, h]

@[simp] theorem State.consume_st (s : State) :
    (s.consume).st = s.st := by
  cases h : s.schedule <;> simp [State.consume, h]

@[simp] theorem State.consume_fb (s : State) :
    (s.consume).fb = s.fb := by
  cases h : s.schedule <;> simp [State.consume, h]

@[simp] theorem State.consume_mem (s : State) :
    (s.consume).mem = s.mem := by
  cases h : s.schedule <;> simp [State.consume, h]

@[simp] theorem State.consume_run (s : State) :
    (s.consume).run = s.run := by
  cases h : s.schedule <;> simp [State.consume, h]

@[simp] theorem State.consume_faultCause (s : State) :
    (s.consume).faultCause = s.faultCause := by
  cases h : s.schedule <;> simp [State.consume, h]

@[simp] theorem State.consume_faultInfo (s : State) :
    (s.consume).faultInfo = s.faultInfo := by
  cases h : s.schedule <;> simp [State.consume, h]

@[simp] theorem State.consume_keys (s : State) :
    (s.consume).keys = s.keys := by
  cases h : s.schedule <;> simp [State.consume, h]

@[simp] theorem State.consume_rnd (s : State) :
    (s.consume).rnd = s.rnd := by
  cases h : s.schedule <;> simp [State.consume, h]

@[simp] theorem State.consume_schedule (s : State) :
    (s.consume).schedule = s.schedule.tail := by
  cases h : s.schedule <;> simp [State.consume, h]

@[simp] theorem State.consume_reg (s : State) (y : RegIdx) :
    (s.consume).reg y = s.reg y := by
  simp [State.reg]

@[simp] theorem State.consume_stackAt (s : State) (k : BitVec 4) :
    (s.consume).stackAt k = s.stackAt k := by
  simp [State.stackAt]

@[simp] theorem State.consume_cell (s : State) (r c : Nat) :
    (s.consume).cell r c = s.cell r c := by
  simp [State.cell]

/-! ### tick -/

@[simp] theorem State.tick_v (s : State) :
    (s.tick).v = s.v := rfl

@[simp] theorem State.tick_i (s : State) :
    (s.tick).i = s.i := rfl

@[simp] theorem State.tick_pc (s : State) :
    (s.tick).pc = s.pc := rfl

@[simp] theorem State.tick_stack (s : State) :
    (s.tick).stack = s.stack := rfl

@[simp] theorem State.tick_sp (s : State) :
    (s.tick).sp = s.sp := rfl

@[simp] theorem State.tick_dt (s : State) :
    (s.tick).dt = if 0 < s.dt.toNat then s.dt - 1 else s.dt := rfl

@[simp] theorem State.tick_st (s : State) :
    (s.tick).st = if 0 < s.st.toNat then s.st - 1 else s.st := rfl

@[simp] theorem State.tick_fb (s : State) :
    (s.tick).fb = s.fb := rfl

@[simp] theorem State.tick_mem (s : State) :
    (s.tick).mem = s.mem := rfl

@[simp] theorem State.tick_run (s : State) :
    (s.tick).run = s.run := rfl

@[simp] theorem State.tick_faultCause (s : State) :
    (s.tick).faultCause = s.faultCause := rfl

@[simp] theorem State.tick_faultInfo (s : State) :
    (s.tick).faultInfo = s.faultInfo := rfl

@[simp] theorem State.tick_keys (s : State) :
    (s.tick).keys = s.keys := rfl

@[simp] theorem State.tick_rnd (s : State) :
    (s.tick).rnd = s.rnd := rfl

@[simp] theorem State.tick_schedule (s : State) :
    (s.tick).schedule = s.schedule := rfl

@[simp] theorem State.tick_draws (s : State) :
    (s.tick).draws = s.draws := rfl

@[simp] theorem State.tick_reg (s : State) (y : RegIdx) :
    (s.tick).reg y = s.reg y := rfl

@[simp] theorem State.tick_stackAt (s : State) (k : BitVec 4) :
    (s.tick).stackAt k = s.stackAt k := rfl

@[simp] theorem State.tick_cell (s : State) (r c : Nat) :
    (s.tick).cell r c = s.cell r c := rfl

/-! ### Reading what an update wrote -/

/-- A register after a register write (R7). -/
theorem State.setReg_reg (s : State) (x y : RegIdx) (w : Byte) :
    (s.setReg x w).reg y = if y = x then w else s.reg y := by
  simp only [State.reg, State.setReg, Vector.getElem_set]
  by_cases h : y = x
  · simp [h]
  · have : x.toNat ≠ y.toNat := fun e => h (BitVec.eq_of_toNat_eq e.symm)
    simp [h, this]

@[simp] theorem State.setReg_reg_self (s : State) (x : RegIdx) (w : Byte) :
    (s.setReg x w).reg x = w := by simp [State.setReg_reg]

/-- A stack entry after a push (R14, R77). -/
theorem State.push_stackAt (s : State) (w : Word) (k : BitVec 4) :
    (s.push w).stackAt k = if k = s.sp then w else s.stackAt k := by
  simp only [State.stackAt, State.push, Vector.getElem_set]
  by_cases h : k = s.sp
  · simp [h]
  · have : s.sp.toNat ≠ k.toNat := fun e => h (BitVec.eq_of_toNat_eq e.symm)
    simp [h, this]

@[simp] theorem State.setFb_cell (s : State) (f : Frame) (r c : Nat) :
    (s.setFb f).cell r c = f.get r c := rfl

/-! ### Derived updates -/

@[simp] theorem State.advance_eq (s : State) : s.advance = s.setPc (s.pc + 2) := rfl

@[simp] theorem State.skipIf_eq (s : State) (c : Bool) :
    s.skipIf c = s.setPc (if c then s.pc + 4 else s.pc + 2) := rfl

@[simp] theorem State.advanceI_eq (s : State) (x : RegIdx) :
    s.advanceI x = s.setI (s.i + x.setWidth 16 + 1) := rfl

@[simp] theorem State.setResultFlag_eq (s : State) (x : RegIdx) (result : Byte) (flag : Bool) :
    s.setResultFlag x result flag = (s.setReg x result).setReg regF (flagByte flag) := rfl

/-- `LOGIC_VF = UNCHANGED` on this hardware (R5). -/
@[simp] theorem State.logicFlag_eq (s : State) : s.logicFlag = s := rfl

/-- `SHIFT_SRC = VY` on this hardware (R5). -/
@[simp] theorem State.shiftOperand_eq (s : State) (x y : RegIdx) : s.shiftOperand x y = s.reg y := rfl


/-! ### loadRegs -/

@[simp] theorem State.loadRegs_i (s : State) (k : Nat) (ws : List Byte) :
    (s.loadRegs k ws).i = s.i := by
  induction ws generalizing s k with
  | nil => rfl
  | cons w ws ih => simp [State.loadRegs, ih]

@[simp] theorem State.loadRegs_pc (s : State) (k : Nat) (ws : List Byte) :
    (s.loadRegs k ws).pc = s.pc := by
  induction ws generalizing s k with
  | nil => rfl
  | cons w ws ih => simp [State.loadRegs, ih]

@[simp] theorem State.loadRegs_stack (s : State) (k : Nat) (ws : List Byte) :
    (s.loadRegs k ws).stack = s.stack := by
  induction ws generalizing s k with
  | nil => rfl
  | cons w ws ih => simp [State.loadRegs, ih]

@[simp] theorem State.loadRegs_sp (s : State) (k : Nat) (ws : List Byte) :
    (s.loadRegs k ws).sp = s.sp := by
  induction ws generalizing s k with
  | nil => rfl
  | cons w ws ih => simp [State.loadRegs, ih]

@[simp] theorem State.loadRegs_dt (s : State) (k : Nat) (ws : List Byte) :
    (s.loadRegs k ws).dt = s.dt := by
  induction ws generalizing s k with
  | nil => rfl
  | cons w ws ih => simp [State.loadRegs, ih]

@[simp] theorem State.loadRegs_st (s : State) (k : Nat) (ws : List Byte) :
    (s.loadRegs k ws).st = s.st := by
  induction ws generalizing s k with
  | nil => rfl
  | cons w ws ih => simp [State.loadRegs, ih]

@[simp] theorem State.loadRegs_fb (s : State) (k : Nat) (ws : List Byte) :
    (s.loadRegs k ws).fb = s.fb := by
  induction ws generalizing s k with
  | nil => rfl
  | cons w ws ih => simp [State.loadRegs, ih]

@[simp] theorem State.loadRegs_mem (s : State) (k : Nat) (ws : List Byte) :
    (s.loadRegs k ws).mem = s.mem := by
  induction ws generalizing s k with
  | nil => rfl
  | cons w ws ih => simp [State.loadRegs, ih]

@[simp] theorem State.loadRegs_run (s : State) (k : Nat) (ws : List Byte) :
    (s.loadRegs k ws).run = s.run := by
  induction ws generalizing s k with
  | nil => rfl
  | cons w ws ih => simp [State.loadRegs, ih]

@[simp] theorem State.loadRegs_faultCause (s : State) (k : Nat) (ws : List Byte) :
    (s.loadRegs k ws).faultCause = s.faultCause := by
  induction ws generalizing s k with
  | nil => rfl
  | cons w ws ih => simp [State.loadRegs, ih]

@[simp] theorem State.loadRegs_faultInfo (s : State) (k : Nat) (ws : List Byte) :
    (s.loadRegs k ws).faultInfo = s.faultInfo := by
  induction ws generalizing s k with
  | nil => rfl
  | cons w ws ih => simp [State.loadRegs, ih]

@[simp] theorem State.loadRegs_keys (s : State) (k : Nat) (ws : List Byte) :
    (s.loadRegs k ws).keys = s.keys := by
  induction ws generalizing s k with
  | nil => rfl
  | cons w ws ih => simp [State.loadRegs, ih]

@[simp] theorem State.loadRegs_rnd (s : State) (k : Nat) (ws : List Byte) :
    (s.loadRegs k ws).rnd = s.rnd := by
  induction ws generalizing s k with
  | nil => rfl
  | cons w ws ih => simp [State.loadRegs, ih]

@[simp] theorem State.loadRegs_schedule (s : State) (k : Nat) (ws : List Byte) :
    (s.loadRegs k ws).schedule = s.schedule := by
  induction ws generalizing s k with
  | nil => rfl
  | cons w ws ih => simp [State.loadRegs, ih]

@[simp] theorem State.loadRegs_draws (s : State) (k : Nat) (ws : List Byte) :
    (s.loadRegs k ws).draws = s.draws := by
  induction ws generalizing s k with
  | nil => rfl
  | cons w ws ih => simp [State.loadRegs, ih]

/-- Every register after a range of registers is loaded (R105). -/
theorem State.loadRegs_reg (s : State) (k : Nat) (ws : List Byte) (x : RegIdx)
    (h : k + ws.length ≤ 16) :
    (s.loadRegs k ws).reg x =
      if k ≤ x.toNat ∧ x.toNat < k + ws.length then ws.getD (x.toNat - k) 0 else s.reg x := by
  induction ws generalizing s k with
  | nil =>
    have : ¬(k ≤ x.toNat ∧ x.toNat < k) := by omega
    simp [State.loadRegs, this]
  | cons w ws ih =>
    simp only [List.length_cons] at h ⊢
    rw [State.loadRegs, ih _ _ (by omega), State.setReg_reg]
    have hx : (x = BitVec.ofNat 4 k) ↔ x.toNat = k := by
      constructor
      · rintro rfl; simp; omega
      · intro e; apply BitVec.eq_of_toNat_eq; simp; omega
    simp only [hx]
    rcases Nat.lt_trichotomy x.toNat k with hlt | heq | hgt
    · rw [if_neg (by omega), if_neg (by omega), if_neg (by omega)]
    · rw [if_neg (by omega), if_pos heq, if_pos (by omega), heq, Nat.sub_self, List.getD_cons_zero]
    · have e : x.toNat - k = (x.toNat - (k + 1)) + 1 := by omega
      by_cases hin : x.toNat < k + 1 + ws.length
      · rw [if_pos (by omega), if_pos (by omega), e, List.getD_cons_succ]
      · rw [if_neg (by omega), if_neg (by omega), if_neg (by omega)]

end Sys2Proof.Machine
end

