-- ==== Sys2Proof/Laws/Blit.lean ====
section
/-! SUPPORT. The laws of the framebuffer and of the sprite blit (spec 10_state.md R18, 40_display.md R71). -/

namespace Sys2Proof.Machine

@[simp] theorem Frame.get_clear (r c : Nat) : Frame.get Frame.clear r c = false := by
  simp [Frame.get, Frame.clear]

/-- Two framebuffers with the same cells are the same. -/
theorem Frame.ext {f g : Frame} (h : ∀ r c, r < 32 → c < 64 → f.get r c = g.get r c) : f = g := by
  refine Vector.ext fun r hr => Vector.ext fun c hc => ?_
  simpa [Frame.get, hr, hc] using h r c hr hc

/-- A cell after a flip: only the addressed cell changes, and only inside the grid (R71). -/
theorem Frame.get_flip (f : Frame) (r c i j : Nat) :
    (f.flip r c).get i j =
      (f.get i j ^^ (decide (i = r) && decide (j = c) && decide (r < 32) && decide (c < 64))) := by
  by_cases h : r < 32 ∧ c < 64
  · by_cases hij : i < 32 ∧ j < 64
    · simp only [Frame.flip, Frame.get, dif_pos h, dif_pos hij, Vector.getElem_set]
      by_cases hi : r = i
      · subst hi
        by_cases hj : c = j
        · subst hj; simp [h]
        · have : j ≠ c := fun e => hj e.symm
          simp [hj, this]
      · have : i ≠ r := fun e => hi e.symm
        simp [hi, this]
    · have hn : (decide (i = r) && decide (j = c)) = false := by
        simp only [Bool.and_eq_false_iff, decide_eq_false_iff_not]; omega
      simp only [Frame.get, dif_neg hij, hn, Bool.false_and, Bool.xor_false]
  · have hn : (decide (r < 32) && decide (c < 64)) = false := by
      simp only [Bool.and_eq_false_iff, decide_eq_false_iff_not]; omega
    simp only [Frame.flip, dif_neg h, Bool.and_assoc, hn, Bool.and_false, Bool.xor_false]

theorem Frame.get_eq_true_bounds {f : Frame} {r c : Nat} (h : f.get r c = true) : r < 32 ∧ c < 64 := by
  by_contra hn
  simp [Frame.get, hn] at h

/-- Whether the first `n` pixels of a row byte, drawn at column `vx` and row `cy`, cover the cell
`(i, j)` of the grid with a 1. -/
def rowCovers (vx cy : Nat) (b : Byte) (n i j : Nat) : Bool :=
  decide (i = cy) && decide (vx ≤ j) && decide (j < vx + n) && b.getLsbD (7 - (j - vx)) &&
    decide (i < 32) && decide (j < 64)

theorem blitPixels_spec (vx cy : Nat) (b : Byte) (acc : Frame × Bool) (n : Nat) :
    (∀ i j, ((List.range n).foldl (blitPixel vx cy b) acc).1.get i j =
        (acc.1.get i j ^^ rowCovers vx cy b n i j)) ∧
      (((List.range n).foldl (blitPixel vx cy b) acc).2 = true ↔
        acc.2 = true ∨ ∃ i j, rowCovers vx cy b n i j = true ∧ acc.1.get i j = true) := by
  induction n with
  | zero =>
    have h0 : ∀ i j, rowCovers vx cy b 0 i j = false := by
      intro i j
      rw [Bool.eq_false_iff]
      simp only [rowCovers, ne_eq, Bool.and_eq_true, decide_eq_true_eq]
      omega
    simp [h0]
  | succ n ih =>
    rw [List.range_succ, List.foldl_append, List.foldl_cons, List.foldl_nil]
    set p := (List.range n).foldl (blitPixel vx cy b) acc
    have hstep : ∀ i j, rowCovers vx cy b (n + 1) i j =
        (rowCovers vx cy b n i j || (decide (i = cy) && decide (j = vx + n) && b.getLsbD (7 - n) &&
          decide (i < 32) && decide (j < 64))) := by
      intro i j
      rw [Bool.eq_iff_iff]
      simp only [rowCovers, Bool.or_eq_true, Bool.and_eq_true, decide_eq_true_eq]
      constructor
      · rintro ⟨⟨⟨⟨⟨h1, h2⟩, h3⟩, h4⟩, h5⟩, h6⟩
        by_cases hj : j = vx + n
        · refine .inr ⟨⟨⟨⟨h1, hj⟩, ?_⟩, h5⟩, h6⟩
          rwa [hj, Nat.add_sub_cancel_left] at h4
        · exact .inl ⟨⟨⟨⟨⟨h1, h2⟩, by omega⟩, h4⟩, h5⟩, h6⟩
      · rintro (⟨⟨⟨⟨⟨h1, h2⟩, h3⟩, h4⟩, h5⟩, h6⟩ | ⟨⟨⟨⟨h1, h2⟩, h3⟩, h4⟩, h5⟩)
        · exact ⟨⟨⟨⟨⟨h1, h2⟩, by omega⟩, h4⟩, h5⟩, h6⟩
        · exact ⟨⟨⟨⟨⟨h1, by omega⟩, by omega⟩, by rw [h2, Nat.add_sub_cancel_left]; exact h3⟩, h4⟩, h5⟩
    have hdisj : ∀ i j, j = vx + n → rowCovers vx cy b n i j = false := by
      intro i j hj
      rw [Bool.eq_false_iff]
      simp only [rowCovers, ne_eq, Bool.and_eq_true, decide_eq_true_eq]
      omega
    obtain ⟨ih1, ih2⟩ := ih
    by_cases hc : b.getLsbD (7 - n) = true ∧ vx + n ≤ 63 ∧ cy ≤ 31
    · obtain ⟨hb, hx, hy⟩ := hc
      have hpix : blitPixel vx cy b p n = (Frame.flip p.1 cy (vx + n), p.2 || p.1.get cy (vx + n)) := by
        simp only [blitPixel]; rw [if_pos ⟨hb, hx, hy⟩]
      have hcy : cy < 32 := by omega
      have hvx : vx + n < 64 := by omega
      rw [hpix]
      refine ⟨fun i j => ?_, ?_⟩
      · simp only [Frame.get_flip, ih1, hstep, hb]
        by_cases hi : i = cy
        · by_cases hj : j = vx + n
          · simp [hi, hj, hdisj cy (vx + n) rfl, hcy, hvx]
          · simp [hj]
        · simp [hi]
      · simp only [Bool.or_eq_true, ih2, ih1, hdisj cy (vx + n) rfl, Bool.xor_false, hstep, hb]
        constructor
        · rintro ((h | ⟨i, j, h1, h2⟩) | h)
          · exact .inl h
          · exact .inr ⟨i, j, .inl h1, h2⟩
          · exact .inr ⟨cy, vx + n, .inr (by simp [hcy, hvx]), h⟩
        · rintro (h | ⟨i, j, h1 | h1, h2⟩)
          · exact .inl (.inl h)
          · exact .inl (.inr ⟨i, j, h1, h2⟩)
          · simp only [Bool.and_eq_true, decide_eq_true_eq, Bool.and_true] at h1
            obtain ⟨⟨⟨rfl, rfl⟩, -⟩, -⟩ := h1
            exact .inr h2
    · have hpix : blitPixel vx cy b p n = p := by
        simp only [blitPixel]; rw [if_neg hc]
      have hnone : ∀ i j, (decide (i = cy) && decide (j = vx + n) && b.getLsbD (7 - n) &&
          decide (i < 32) && decide (j < 64)) = false := by
        intro i j
        rw [Bool.eq_false_iff]
        simp only [ne_eq, Bool.and_eq_true, decide_eq_true_eq]
        rintro ⟨⟨⟨⟨rfl, rfl⟩, hb⟩, h5⟩, h6⟩
        exact hc ⟨hb, by omega, by omega⟩
      rw [hpix]
      simp only [hstep, hnone, Bool.or_false]
      exact ⟨ih1, ih2⟩

/-- Whether a sprite drawn at column `vx` with its first row at row `cy` covers the cell `(i, j)` of the
grid with a 1 (R71). -/
def spriteCovers (vx cy : Nat) (bs : List Byte) (i j : Nat) : Bool :=
  decide (cy ≤ i) && decide (i < cy + bs.length) && rowCovers vx i (bs.getD (i - cy) 0) 8 i j

theorem spriteCovers_cons (vx cy : Nat) (b : Byte) (bs : List Byte) (i j : Nat) :
    spriteCovers vx cy (b :: bs) i j = (rowCovers vx cy b 8 i j || spriteCovers vx (cy + 1) bs i j) := by
  rcases Nat.lt_trichotomy i cy with hlt | heq | hgt
  · have h1 : ¬cy ≤ i := by omega
    have h2 : ¬cy + 1 ≤ i := by omega
    have h3 : ¬i = cy := by omega
    simp [spriteCovers, rowCovers, h1, h2, h3]
  · subst heq
    have h2 : ¬i + 1 ≤ i := by omega
    simp [spriteCovers, h2]
  · have h1 : cy ≤ i := by omega
    have h2 : cy + 1 ≤ i := by omega
    have h3 : ¬i = cy := by omega
    have e : i - cy = (i - (cy + 1)) + 1 := by omega
    have h4 : (i < cy + (bs.length + 1)) ↔ (i < cy + 1 + bs.length) := by omega
    have hr : rowCovers vx cy b 8 i j = false := by simp [rowCovers, h3]
    rw [hr, Bool.false_or]
    simp only [spriteCovers, List.length_cons, e, List.getD_cons_succ, h1, h2, h4]

theorem spriteCovers_row_excl (vx cy : Nat) (b : Byte) (bs : List Byte) (i j : Nat)
    (h : rowCovers vx cy b 8 i j = true) : spriteCovers vx (cy + 1) bs i j = false := by
  have hi : i = cy := by
    simp only [rowCovers, Bool.and_eq_true, decide_eq_true_eq] at h
    exact h.1.1.1.1.1
  have h2 : ¬cy + 1 ≤ i := by omega
  simp [spriteCovers, h2]

/-- Everything the blit does (R71): each covered cell of the grid is inverted and no other, and the
collision flag is set exactly when a covered cell was on before. -/
theorem blit_spec (vx cy : Nat) (bs : List Byte) (acc : Frame × Bool) :
    (∀ i j, (blit vx cy bs acc).1.get i j = (acc.1.get i j ^^ spriteCovers vx cy bs i j)) ∧
      ((blit vx cy bs acc).2 = true ↔
        acc.2 = true ∨ ∃ i j, spriteCovers vx cy bs i j = true ∧ acc.1.get i j = true) := by
  induction bs generalizing cy acc with
  | nil =>
    have h0 : ∀ i j, spriteCovers vx cy [] i j = false := by
      intro i j
      rw [Bool.eq_false_iff]
      simp only [spriteCovers, ne_eq, Bool.and_eq_true, decide_eq_true_eq, List.length_nil]
      omega
    simp [blit, h0]
  | cons b bs ih =>
    obtain ⟨r1, r2⟩ := blitPixels_spec vx cy b acc 8
    obtain ⟨i1, i2⟩ := ih (cy + 1) (blitRow vx cy b acc)
    have r1' : ∀ i j, (blitRow vx cy b acc).1.get i j = (acc.1.get i j ^^ rowCovers vx cy b 8 i j) := r1
    have r2' : (blitRow vx cy b acc).2 = true ↔
        acc.2 = true ∨ ∃ i j, rowCovers vx cy b 8 i j = true ∧ acc.1.get i j = true := r2
    simp only [blit]
    refine ⟨fun i j => ?_, ?_⟩
    · rw [i1, r1', spriteCovers_cons, Bool.xor_assoc]
      cases hr : rowCovers vx cy b 8 i j
      · simp
      · simp [spriteCovers_row_excl vx cy b bs i j hr]
    · rw [i2, r2']
      simp only [spriteCovers_cons, Bool.or_eq_true, r1']
      constructor
      · rintro ((h | ⟨i, j, h1, h2⟩) | ⟨i, j, h1, h2⟩)
        · exact .inl h
        · exact .inr ⟨i, j, .inl h1, h2⟩
        · cases hr : rowCovers vx cy b 8 i j
          · exact .inr ⟨i, j, .inr h1, by simpa [hr] using h2⟩
          · rw [spriteCovers_row_excl vx cy b bs i j hr] at h1; exact absurd h1 (by simp)
      · rintro (h | ⟨i, j, h1 | h1, h2⟩)
        · exact .inl (.inl h)
        · exact .inl (.inr ⟨i, j, h1, h2⟩)
        · cases hr : rowCovers vx cy b 8 i j
          · exact .inr ⟨i, j, h1, by simpa [hr] using h2⟩
          · rw [spriteCovers_row_excl vx cy b bs i j hr] at h1; exact absurd h1 (by simp)

end Sys2Proof.Machine
end

