-- ==== Sys2Proof/Laws/Decode.lean ====
section
/-! SUPPORT. What each field of a word of each format is (spec 30_encoding.md R51, R52), and the byte order of
a word (20_memory.md R32). -/

namespace Sys2Proof

/-! ### Format NNN -/

@[simp] theorem fieldFam_formatNNN (f : Nibble) (nnn : Addr12) : fieldFam (formatNNN f nnn) = f :=
  BitVec.extractLsb'_append_eq_left

@[simp] theorem fieldNNN_formatNNN (f : Nibble) (nnn : Addr12) : fieldNNN (formatNNN f nnn) = nnn :=
  BitVec.extractLsb'_append_eq_right

/-! ### Format XNN, and format X as its words with a fixed `nn` -/

@[simp] theorem fieldFam_formatXNN (f : Nibble) (x : RegIdx) (nn : Byte) :
    fieldFam (formatXNN f x nn) = f := by
  unfold fieldFam formatXNN
  rw [BitVec.extractLsb'_append_eq_of_le (by decide)]
  exact BitVec.extractLsb'_append_eq_left

@[simp] theorem fieldX_formatXNN (f : Nibble) (x : RegIdx) (nn : Byte) :
    fieldX (formatXNN f x nn) = x := by
  unfold fieldX formatXNN
  rw [BitVec.extractLsb'_append_eq_of_le (by decide)]
  exact BitVec.extractLsb'_append_eq_right

@[simp] theorem fieldNN_formatXNN (f : Nibble) (x : RegIdx) (nn : Byte) :
    fieldNN (formatXNN f x nn) = nn :=
  BitVec.extractLsb'_append_eq_right

/-! ### Format XYN, and format XY as its words with a fixed `n` -/

@[simp] theorem fieldFam_formatXYN (f : Nibble) (x y : RegIdx) (n : Nibble) :
    fieldFam (formatXYN f x y n) = f := by
  unfold fieldFam formatXYN
  rw [BitVec.extractLsb'_append_eq_of_le (by decide)]
  exact BitVec.extractLsb'_append_eq_left

@[simp] theorem fieldX_formatXYN (f : Nibble) (x y : RegIdx) (n : Nibble) :
    fieldX (formatXYN f x y n) = x := by
  unfold fieldX formatXYN
  rw [BitVec.extractLsb'_append_eq_of_le (by decide)]
  exact BitVec.extractLsb'_append_eq_right

@[simp] theorem fieldY_formatXYN (f : Nibble) (x y : RegIdx) (n : Nibble) :
    fieldY (formatXYN f x y n) = y := by
  unfold fieldY formatXYN
  rw [BitVec.extractLsb'_append_eq_of_add_le (by decide)]
  exact BitVec.extractLsb'_append_eq_left

@[simp] theorem fieldN_formatXYN (f : Nibble) (x y : RegIdx) (n : Nibble) :
    fieldN (formatXYN f x y n) = n := by
  unfold fieldN formatXYN
  rw [BitVec.extractLsb'_append_eq_of_add_le (by decide)]
  exact BitVec.extractLsb'_append_eq_right

/-! ### A word is its fields -/

theorem formatNNN_fields (w : Word) : formatNNN (fieldFam w) (fieldNNN w) = w :=
  BitVec.extractLsb'_append_extractLsb'

theorem formatXNN_fields (w : Word) : formatXNN (fieldFam w) (fieldX w) (fieldNN w) = w := by
  have h : fieldFam w ++ fieldX w = highByte w :=
    BitVec.extractLsb'_append_extractLsb'_eq_extractLsb' rfl
  exact (congrArg (joinBytes · (fieldNN w)) h).trans BitVec.extractLsb'_append_extractLsb'

theorem formatXYN_fields (w : Word) :
    formatXYN (fieldFam w) (fieldX w) (fieldY w) (fieldN w) = w := by
  have h : fieldY w ++ fieldN w = fieldNN w :=
    BitVec.extractLsb'_append_extractLsb'_eq_extractLsb' rfl
  exact (congrArg (joinBytes (fieldFam w ++ fieldX w)) h).trans (formatXNN_fields w)

/-! ### Byte order -/

@[simp] theorem joinBytes_bytes (w : Word) : joinBytes (highByte w) (lowByte w) = w :=
  BitVec.extractLsb'_append_extractLsb'

@[simp] theorem highByte_joinBytes (hi lo : Byte) : highByte (joinBytes hi lo) = hi :=
  BitVec.extractLsb'_append_eq_left

@[simp] theorem lowByte_joinBytes (hi lo : Byte) : lowByte (joinBytes hi lo) = lo :=
  BitVec.extractLsb'_append_eq_right

/-! ### The opcode map on the formats (R52) -/

theorem and_F4 (a : BitVec 4) : a &&& 0xF = a := BitVec.and_allOnes
theorem and_FF8 (a : BitVec 8) : a &&& 0xFF = a := BitVec.and_allOnes
theorem and_zero4 (a : BitVec 4) : a &&& 0 = 0 := BitVec.and_zero
theorem and_zero8 (a : BitVec 8) : a &&& 0 = 0 := BitVec.and_zero
theorem and_zero12 (a : BitVec 12) : a &&& 0 = 0 := BitVec.and_zero

/-- A word of format NNN fits a row that fixes the family alone. -/
theorem fits_formatNNN (m : String) (p : Word) (f : Nibble) (nnn : Addr12) (hp : p = formatNNN f 0) :
    OpRow.fits ⟨m, 0xF000, p⟩ (formatNNN f nnn) = true := by
  subst hp
  have h : formatNNN f nnn &&& formatNNN 0xF 0 = formatNNN f 0 := by
    exact BitVec.and_append.trans (by rw [and_F4, and_zero12]; rfl)
  exact beq_iff_eq.2 h

/-- A word of format XNN fits a row that fixes the family alone. -/
theorem fits_formatXNN (m : String) (p : Word) (f : Nibble) (x : RegIdx) (nn : Byte)
    (hp : p = formatXNN f 0 0) : OpRow.fits ⟨m, 0xF000, p⟩ (formatXNN f x nn) = true := by
  subst hp
  have h : formatXNN f x nn &&& formatXNN 0xF 0 0 = formatXNN f 0 0 := by
    exact BitVec.and_append.trans (congrArg₂ _ (BitVec.and_append.trans (by rw [and_F4, and_zero4])) (and_zero8 _))
  exact beq_iff_eq.2 h

/-- A word of format X fits a row that fixes the family and `nn`. -/
theorem fits_formatX (m : String) (p : Word) (f : Nibble) (x : RegIdx) (nn : Byte)
    (hp : p = formatXNN f 0 nn) : OpRow.fits ⟨m, 0xF0FF, p⟩ (formatXNN f x nn) = true := by
  subst hp
  have h : formatXNN f x nn &&& formatXNN 0xF 0 0xFF = formatXNN f 0 nn := by
    exact BitVec.and_append.trans (congrArg₂ _ (BitVec.and_append.trans (by rw [and_F4, and_zero4])) (and_FF8 _))
  exact beq_iff_eq.2 h

/-- A word of format XY fits a row that fixes the family and `n`. -/
theorem fits_formatXY (m : String) (p : Word) (f : Nibble) (x y : RegIdx) (n : Nibble)
    (hp : p = formatXYN f 0 0 n) : OpRow.fits ⟨m, 0xF00F, p⟩ (formatXYN f x y n) = true := by
  subst hp
  have h : formatXYN f x y n &&& formatXYN 0xF 0 0 0xF = formatXYN f 0 0 n := by
    exact BitVec.and_append.trans (congrArg₂ _ (BitVec.and_append.trans (by rw [and_F4, and_zero4]))
      (BitVec.and_append.trans (by rw [and_zero4, and_F4])))
  exact beq_iff_eq.2 h

/-- A word of format XYN fits a row that fixes the family alone. -/
theorem fits_formatXYN (m : String) (p : Word) (f : Nibble) (x y : RegIdx) (n : Nibble)
    (hp : p = formatXYN f 0 0 0) : OpRow.fits ⟨m, 0xF000, p⟩ (formatXYN f x y n) = true := by
  subst hp
  have h : formatXYN f x y n &&& formatXYN 0xF 0 0 0 = formatXYN f 0 0 0 := by
    exact BitVec.and_append.trans (congrArg₂ _ (BitVec.and_append.trans (by rw [and_F4, and_zero4]))
      (BitVec.and_append.trans (by rw [and_zero4, and_zero4])))
  exact beq_iff_eq.2 h

end Sys2Proof
end

