-- ==== Sys2Proof/Laws/Memory.lean ====
section
/-! SUPPORT. The laws of memory: read after write, the canonical form is kept and is canonical, and what a
data footprint's check answers (spec 20_memory.md R34 to R39). -/

namespace Sys2Proof.Machine

/-! ### Reading after a write -/

theorem Memory.read_insert (m : Memory) (a b : Nat) (w : Byte) :
    Memory.read (Memory.insert a w m) b = if b = a then w else Memory.read m b := by
  induction m with
  | nil => rfl
  | cons c m ih =>
    obtain ⟨c, u⟩ := c
    simp only [Memory.insert]
    split
    · rfl
    · split
      · subst_vars
        simp only [Memory.read]
        split <;> rfl
      · simp only [Memory.read, ih]
        split_ifs <;> first | rfl | omega

theorem Memory.read_erase (m : Memory) (a b : Nat) :
    Memory.read (Memory.erase a m) b = if b = a then unlisted a else Memory.read m b := by
  induction m with
  | nil => simp only [Memory.erase, Memory.read]; split <;> simp_all
  | cons c m ih =>
    obtain ⟨c, u⟩ := c
    simp only [Memory.erase]
    split
    · subst_vars
      simp only [ih, Memory.read]
      split <;> rfl
    · simp only [Memory.read, ih]
      split_ifs <;> first | rfl | omega

/-- A read after a write: the byte written, and every other byte as it was (R36, R39 c). -/
theorem Memory.read_write (m : Memory) (a b : Nat) (w : Byte) (h : a < Config.memSize) :
    Memory.read (Memory.write m a w) b = if b = a then w else Memory.read m b := by
  simp only [Memory.write, if_pos h]
  split
  · simp only [Memory.read_erase]; split <;> simp_all
  · exact Memory.read_insert m a b w

/-- A write leaves every other address alone, whatever the address written. -/
theorem Memory.read_write_of_ne (m : Memory) (a b : Nat) (w : Byte) (h : b ≠ a) :
    Memory.read (Memory.write m a w) b = Memory.read m b := by
  by_cases ha : a < Config.memSize
  · simp [Memory.read_write m a b w ha, h]
  · simp [Memory.write, ha]

/-- Every byte after a group of writes that stays within memory (R34, R36). -/
theorem Memory.read_writeBytes (m : Memory) (a : Nat) (ws : List Byte) (b : Nat)
    (h : a + ws.length ≤ Config.memSize) :
    Memory.read (Memory.writeBytes m a ws) b =
      if a ≤ b ∧ b < a + ws.length then ws.getD (b - a) 0 else Memory.read m b := by
  induction ws generalizing m a with
  | nil =>
    rw [if_neg (by simp), Memory.writeBytes]
  | cons w ws ih =>
    simp only [List.length_cons] at h ⊢
    rw [Memory.writeBytes, ih _ _ (by omega), Memory.read_write _ _ _ _ (by omega)]
    rcases Nat.lt_trichotomy b a with hlt | heq | hgt
    · rw [if_neg (by omega), if_neg (by omega), if_neg (by omega)]
    · rw [if_neg (by omega), if_pos heq, if_pos (by omega), heq, Nat.sub_self, List.getD_cons_zero]
    · have e : b - a = (b - (a + 1)) + 1 := by omega
      by_cases hin : b < a + 1 + ws.length
      · rw [if_pos (by omega), if_pos (by omega), e, List.getD_cons_succ]
      · rw [if_neg (by omega), if_neg (by omega), if_neg (by omega)]

@[simp] theorem Memory.length_readBytes (m : Memory) (a n : Nat) :
    (Memory.readBytes m a n).length = n := by simp [Memory.readBytes]

/-- The `k`-th byte of a group of reads (R34). -/
theorem Memory.getD_readBytes (m : Memory) (a n k : Nat) (h : k < n) :
    (Memory.readBytes m a n).getD k 0 = Memory.read m (a + k) := by
  simp [Memory.readBytes, List.getD, h]

/-! ### The canonical form -/

theorem Memory.mem_insert {a : Nat} {w : Byte} {m : Memory} {c : Host.Cell}
    (h : c ∈ Memory.insert a w m) : c = (a, w) ∨ c ∈ m := by
  induction m with
  | nil => simpa [Memory.insert] using h
  | cons d m ih =>
    obtain ⟨d, u⟩ := d
    simp only [Memory.insert] at h
    split at h
    · simpa using h
    · split at h
      · simp only [List.mem_cons] at h ⊢; tauto
      · simp only [List.mem_cons] at h ⊢
        rcases h with h | h
        · tauto
        · rcases ih h with h | h <;> tauto

theorem Memory.mem_erase {a : Nat} {m : Memory} {c : Host.Cell} (h : c ∈ Memory.erase a m) :
    c ∈ m := by
  induction m with
  | nil => simp [Memory.erase] at h
  | cons d m ih =>
    obtain ⟨d, u⟩ := d
    simp only [Memory.erase] at h
    split at h
    · exact List.mem_cons_of_mem _ (ih h)
    · simp only [List.mem_cons] at h ⊢
      exact h.imp id ih

theorem Memory.wf_insert {m : Memory} {a : Nat} {w : Byte} (h : m.wf) (ha : a < Config.memSize)
    (hw : w ≠ unlisted a) : (Memory.insert a w m).wf := by
  refine ⟨?_, fun c hc => ?_⟩
  · obtain ⟨hs, -⟩ := h
    induction m with
    | nil => simp [Memory.insert]
    | cons d m ih =>
      obtain ⟨d, u⟩ := d
      rw [List.pairwise_cons] at hs
      simp only [Memory.insert]
      split
      · rename_i hlt
        refine List.pairwise_cons.2 ⟨fun c hc => ?_, List.pairwise_cons.2 hs⟩
        rcases List.mem_cons.1 hc with rfl | hc
        · exact hlt
        · exact Nat.lt_trans hlt (hs.1 c hc)
      · split
        · subst_vars; exact List.pairwise_cons.2 hs
        · refine List.pairwise_cons.2 ⟨fun c hc => ?_, ih hs.2⟩
          rcases Memory.mem_insert hc with rfl | hc
          · simp only; omega
          · exact hs.1 c hc
  · rcases Memory.mem_insert hc with rfl | hc
    · exact ⟨ha, hw⟩
    · exact h.2 c hc

theorem Memory.wf_erase {m : Memory} {a : Nat} (h : m.wf) : (Memory.erase a m).wf := by
  refine ⟨?_, fun c hc => h.2 c (Memory.mem_erase hc)⟩
  obtain ⟨hs, -⟩ := h
  induction m with
  | nil => simp [Memory.erase]
  | cons d m ih =>
    obtain ⟨d, u⟩ := d
    rw [List.pairwise_cons] at hs
    simp only [Memory.erase]
    split
    · exact ih hs.2
    · exact List.pairwise_cons.2 ⟨fun c hc => hs.1 c (Memory.mem_erase hc), ih hs.2⟩

/-- A write keeps the canonical form. -/
theorem Memory.wf_write {m : Memory} (h : m.wf) (a : Nat) (w : Byte) : (Memory.write m a w).wf := by
  simp only [Memory.write]
  split
  · split
    · exact Memory.wf_erase h
    · exact Memory.wf_insert h ‹_› ‹_›
  · exact h

/-- A group of writes keeps the canonical form. -/
theorem Memory.wf_writeBytes {m : Memory} (h : m.wf) (a : Nat) (ws : List Byte) :
    (Memory.writeBytes m a ws).wf := by
  induction ws generalizing m a with
  | nil => exact h
  | cons w ws ih => exact ih (Memory.wf_write h a w) (a + 1)

/-- The memory of the reset state has the canonical form. -/
theorem Memory.wf_reset : Memory.wf State.reset.mem :=
  ⟨List.Pairwise.nil, fun _ h => nomatch h⟩

/-- Below the first listed address a canonical memory reads its reset contents. -/
theorem Memory.read_of_lt {m : Memory} {a : Nat} (h : ∀ c ∈ m, a < c.1) :
    Memory.read m a = unlisted a := by
  induction m with
  | nil => rfl
  | cons d m ih =>
    have hd := h d (by simp)
    simp only [Memory.read]
    rw [if_neg (by omega), ih fun c hc => h c (List.mem_cons_of_mem _ hc)]

/-! ### A data footprint's check (R37, R125) -/

/-- The check answers nothing exactly when the footprint is empty or stays within memory. -/
theorem outOfBounds_eq_none {base : Word} {len : Nat} :
    outOfBounds base len = none ↔ len = 0 ∨ base.toNat + len ≤ Config.memSize := by
  simp only [outOfBounds, Config.memSize]
  split
  · simp; omega
  · simp; omega

/-- What the check answers is the lowest address of the footprint above 0xFFF. -/
theorem outOfBounds_eq_some {base : Word} {len : Nat} {first : Word}
    (h : outOfBounds base len = some first) :
    0 < len ∧ Config.memSize < base.toNat + len ∧ first.toNat = max base.toNat Config.memSize := by
  simp only [outOfBounds, Config.memSize] at h ⊢
  split at h
  · refine ⟨by omega, by omega, ?_⟩
    simp only [Option.some.injEq] at h
    split at h
    · subst h; omega
    · subst h; simp; omega
  · simp at h

/-- The guarded body runs when the footprint stays within memory or is empty. -/
theorem State.guardFootprint_of_fits (s : State) (len : Nat) (body : State)
    (h : len = 0 ∨ s.i.toNat + len ≤ Config.memSize) : s.guardFootprint len body = body := by
  simp [State.guardFootprint, outOfBounds_eq_none.2 h]

/-- All a guarded body can do: it runs, or the core faults with nothing else changed. -/
theorem State.guardFootprint_cases (s : State) (len : Nat) (body : State) :
    (s.guardFootprint len body = body ∧ (len = 0 ∨ s.i.toNat + len ≤ Config.memSize)) ∨
      ∃ first, s.guardFootprint len body = s.raise .memOutOfBounds first ∧ 0 < len ∧
        Config.memSize < s.i.toNat + len ∧ first.toNat = max s.i.toNat Config.memSize := by
  cases h : outOfBounds s.i len with
  | none => exact .inl ⟨by simp [State.guardFootprint, h], outOfBounds_eq_none.1 h⟩
  | some first =>
    exact .inr ⟨first, by simp [State.guardFootprint, h], outOfBounds_eq_some h⟩

end Sys2Proof.Machine
end

