-- ==== Sys2Proof/Laws/Exec.lean ====
section
/-! SUPPORT. Every instruction answers a next state; what an ALU result and flag are as numbers (spec 42_register_alu.md R85); the guards and the key scan. -/

namespace Sys2Proof.Machine

/-! ### Every instruction answers a next state -/

/-- The next state of an instruction. -/
def after (s : State) (i : Instr) : State :=
  match exec i s with
  | .next t => t
  | _ => s

/-- Every instruction answers a next state, the one `after` names: `exec` neither faults nor refuses. -/
theorem exec_eq_after (i : Instr) (s : State) : exec i s = .next (after s i) := by
  cases i <;> rfl

/-! ### The ALU as numbers (R85) -/

theorem aluAdd_result (a b : Byte) : (aluResult (aluAdd a b)).toNat = (a.toNat + b.toNat) % 256 := by
  have ha := a.isLt; have hb := b.isLt
  simp [aluResult, aluAdd, zext8, BitVec.toNat_add]

theorem aluAdd_bit8 (a b : Byte) : aluBit8 (aluAdd a b) = decide (255 < a.toNat + b.toNat) := by
  have ha := a.isLt; have hb := b.isLt
  have h : (aluAdd a b).toNat = a.toNat + b.toNat := by
    simp [aluAdd, zext8, BitVec.toNat_add]; omega
  rw [aluBit8, ← BitVec.testBit_toNat, h, Nat.testBit_eq_decide_div_mod_eq]
  apply decide_eq_decide.2
  omega

theorem aluSub_result (a b : Byte) :
    (aluResult (aluSub a b)).toNat = (256 + a.toNat - b.toNat) % 256 := by
  have ha := a.isLt; have hb := b.isLt
  simp [aluResult, aluSub, zext8, BitVec.toNat_sub]
  omega

theorem aluSub_bit8 (a b : Byte) : (!aluBit8 (aluSub a b)) = decide (b.toNat ≤ a.toNat) := by
  have ha := a.isLt; have hb := b.isLt
  have h : (aluSub a b).toNat = (65536 + a.toNat - b.toNat) % 65536 := by
    simp [aluSub, zext8, BitVec.toNat_sub]; omega
  rw [aluBit8, ← BitVec.testBit_toNat, h, Nat.testBit_eq_decide_div_mod_eq, ← decide_not]
  apply decide_eq_decide.2
  omega

theorem aluShl_result (a : Byte) : (aluResult (aluShl a)).toNat = a.toNat * 2 % 256 := by
  have ha := a.isLt
  simp [aluResult, aluShl, zext8, Nat.shiftLeft_eq]

theorem aluShl_bit8 (a : Byte) : aluBit8 (aluShl a) = a.getLsbD 7 := by
  simp [aluBit8, aluShl, zext8]

theorem aluShr_result (a : Byte) : (aluShr a).toNat = a.toNat / 2 := by
  simp [aluShr, Nat.shiftRight_eq_div_pow]

/-! ### The key guard and the key scan (R110, R111, R113) -/

/-- The guarded body runs when the key number is one of the sixteen. -/
theorem State.guardKey_of_le (s : State) (x : RegIdx) (body : State) (h : (s.reg x).toNat ≤ 15) :
    s.guardKey x body = body := if_neg (by omega)

/-- All a key-guarded body can do. -/
theorem State.guardKey_cases (s : State) (x : RegIdx) (body : State) :
    (s.guardKey x body = body ∧ (s.reg x).toNat ≤ 15) ∨
      (s.guardKey x body = s.raise .keyIndexOutOfRange (zext8 (s.reg x)) ∧ 15 < (s.reg x).toNat) := by
  by_cases h : 15 < (s.reg x).toNat
  · exact .inr ⟨if_pos h, h⟩
  · exact .inl ⟨if_neg h, by omega⟩

/-- The scan finds nothing exactly when no key is down. -/
theorem State.lowestKey_eq_none (s : State) : s.lowestKey = none ↔ ∀ k, k < 16 → s.keyDown k = false := by
  simp [State.lowestKey]

/-- What the scan finds is the smallest key that is down. -/
theorem State.lowestKey_eq_some (s : State) (k : Nat) :
    s.lowestKey = some k ↔ k < 16 ∧ s.keyDown k = true ∧ ∀ j, j < k → s.keyDown j = false := by
  rw [State.lowestKey, List.find?_range_eq_some]
  simp only [List.mem_range, Bool.not_eq_true']
  tauto

/-! ### The sampled inputs and the guards (R21, R22) -/

/-- Loading registers does not look at the sampled inputs. -/
theorem State.loadRegs_sample (s : State) (ks : BitVec 16) (r : Byte) (k : Nat) (ws : List Byte) :
    (s.sample ks r).loadRegs k ws = (s.loadRegs k ws).sample ks r := by
  induction ws generalizing s k with
  | nil => rfl
  | cons w ws ih => exact ih (s.setReg (BitVec.ofNat 4 k) w) (k + 1)

/-- The footprint check does not look at the sampled inputs. -/
theorem State.guardFootprint_sample (s : State) (ks : BitVec 16) (r : Byte) (len : Nat) (body : State) :
    (s.sample ks r).guardFootprint len (body.sample ks r) = (s.guardFootprint len body).sample ks r := by
  simp only [State.guardFootprint, State.sample_i]
  split <;> rfl

end Sys2Proof.Machine
end

