-- ==== Sys2Proof/Laws/PerInstr.lean ====
section
/-! SUPPORT. One lemma per instruction: the encoder's word fits the opcode map's row of that instruction (spec
30_encoding.md R52, R57). -/

namespace Sys2Proof.Laws

/-- The word of `i` fits the row of the opcode map that bears `i`'s mnemonic. -/
def EncodesLegal.Statement (i : Instr) : Prop :=
  ∃ r ∈ opcodeMap, r.mnemonic = i.mnemonic ∧ r.fits (encode i) = true

theorem EncodesLegal.cls : EncodesLegal.Statement .cls :=
  ⟨⟨"CLS", 0xFFFF, 0x00E0⟩, by decide, rfl, by decide⟩

theorem EncodesLegal.ret : EncodesLegal.Statement .ret :=
  ⟨⟨"RET", 0xFFFF, 0x00EE⟩, by decide, rfl, by decide⟩

theorem EncodesLegal.jp (nnn : Addr12) : EncodesLegal.Statement (.jp nnn) :=
  ⟨⟨"JP_nnn", 0xF000, 0x1000⟩, by decide, rfl, fits_formatNNN _ _ 0x1 nnn (by decide)⟩

theorem EncodesLegal.call (nnn : Addr12) : EncodesLegal.Statement (.call nnn) :=
  ⟨⟨"CALL_nnn", 0xF000, 0x2000⟩, by decide, rfl, fits_formatNNN _ _ 0x2 nnn (by decide)⟩

theorem EncodesLegal.seImm (x : RegIdx) (nn : Byte) : EncodesLegal.Statement (.seImm x nn) :=
  ⟨⟨"SE_Vx_nn", 0xF000, 0x3000⟩, by decide, rfl, fits_formatXNN _ _ 0x3 x nn (by decide)⟩

theorem EncodesLegal.sneImm (x : RegIdx) (nn : Byte) : EncodesLegal.Statement (.sneImm x nn) :=
  ⟨⟨"SNE_Vx_nn", 0xF000, 0x4000⟩, by decide, rfl, fits_formatXNN _ _ 0x4 x nn (by decide)⟩

theorem EncodesLegal.seReg (x : RegIdx) (y : RegIdx) : EncodesLegal.Statement (.seReg x y) :=
  ⟨⟨"SE_Vx_Vy", 0xF00F, 0x5000⟩, by decide, rfl, fits_formatXY _ _ 0x5 x y 0x0 (by decide)⟩

theorem EncodesLegal.ldImm (x : RegIdx) (nn : Byte) : EncodesLegal.Statement (.ldImm x nn) :=
  ⟨⟨"LD_Vx_nn", 0xF000, 0x6000⟩, by decide, rfl, fits_formatXNN _ _ 0x6 x nn (by decide)⟩

theorem EncodesLegal.addImm (x : RegIdx) (nn : Byte) : EncodesLegal.Statement (.addImm x nn) :=
  ⟨⟨"ADD_Vx_nn", 0xF000, 0x7000⟩, by decide, rfl, fits_formatXNN _ _ 0x7 x nn (by decide)⟩

theorem EncodesLegal.ldReg (x : RegIdx) (y : RegIdx) : EncodesLegal.Statement (.ldReg x y) :=
  ⟨⟨"LD_Vx_Vy", 0xF00F, 0x8000⟩, by decide, rfl, fits_formatXY _ _ 0x8 x y 0x0 (by decide)⟩

theorem EncodesLegal.orReg (x : RegIdx) (y : RegIdx) : EncodesLegal.Statement (.orReg x y) :=
  ⟨⟨"OR_Vx_Vy", 0xF00F, 0x8001⟩, by decide, rfl, fits_formatXY _ _ 0x8 x y 0x1 (by decide)⟩

theorem EncodesLegal.andReg (x : RegIdx) (y : RegIdx) : EncodesLegal.Statement (.andReg x y) :=
  ⟨⟨"AND_Vx_Vy", 0xF00F, 0x8002⟩, by decide, rfl, fits_formatXY _ _ 0x8 x y 0x2 (by decide)⟩

theorem EncodesLegal.xorReg (x : RegIdx) (y : RegIdx) : EncodesLegal.Statement (.xorReg x y) :=
  ⟨⟨"XOR_Vx_Vy", 0xF00F, 0x8003⟩, by decide, rfl, fits_formatXY _ _ 0x8 x y 0x3 (by decide)⟩

theorem EncodesLegal.addReg (x : RegIdx) (y : RegIdx) : EncodesLegal.Statement (.addReg x y) :=
  ⟨⟨"ADD_Vx_Vy", 0xF00F, 0x8004⟩, by decide, rfl, fits_formatXY _ _ 0x8 x y 0x4 (by decide)⟩

theorem EncodesLegal.subReg (x : RegIdx) (y : RegIdx) : EncodesLegal.Statement (.subReg x y) :=
  ⟨⟨"SUB_Vx_Vy", 0xF00F, 0x8005⟩, by decide, rfl, fits_formatXY _ _ 0x8 x y 0x5 (by decide)⟩

theorem EncodesLegal.shr (x : RegIdx) (y : RegIdx) : EncodesLegal.Statement (.shr x y) :=
  ⟨⟨"SHR_Vx_Vy", 0xF00F, 0x8006⟩, by decide, rfl, fits_formatXY _ _ 0x8 x y 0x6 (by decide)⟩

theorem EncodesLegal.subnReg (x : RegIdx) (y : RegIdx) : EncodesLegal.Statement (.subnReg x y) :=
  ⟨⟨"SUBN_Vx_Vy", 0xF00F, 0x8007⟩, by decide, rfl, fits_formatXY _ _ 0x8 x y 0x7 (by decide)⟩

theorem EncodesLegal.shl (x : RegIdx) (y : RegIdx) : EncodesLegal.Statement (.shl x y) :=
  ⟨⟨"SHL_Vx_Vy", 0xF00F, 0x800E⟩, by decide, rfl, fits_formatXY _ _ 0x8 x y 0xe (by decide)⟩

theorem EncodesLegal.sneReg (x : RegIdx) (y : RegIdx) : EncodesLegal.Statement (.sneReg x y) :=
  ⟨⟨"SNE_Vx_Vy", 0xF00F, 0x9000⟩, by decide, rfl, fits_formatXY _ _ 0x9 x y 0x0 (by decide)⟩

theorem EncodesLegal.ldI (nnn : Addr12) : EncodesLegal.Statement (.ldI nnn) :=
  ⟨⟨"LD_I_nnn", 0xF000, 0xA000⟩, by decide, rfl, fits_formatNNN _ _ 0xa nnn (by decide)⟩

theorem EncodesLegal.jpV0 (nnn : Addr12) : EncodesLegal.Statement (.jpV0 nnn) :=
  ⟨⟨"JP_V0_nnn", 0xF000, 0xB000⟩, by decide, rfl, fits_formatNNN _ _ 0xb nnn (by decide)⟩

theorem EncodesLegal.rnd (x : RegIdx) (nn : Byte) : EncodesLegal.Statement (.rnd x nn) :=
  ⟨⟨"RND_Vx_nn", 0xF000, 0xC000⟩, by decide, rfl, fits_formatXNN _ _ 0xc x nn (by decide)⟩

theorem EncodesLegal.drw (x : RegIdx) (y : RegIdx) (n : Nibble) : EncodesLegal.Statement (.drw x y n) :=
  ⟨⟨"DRW_Vx_Vy_n", 0xF000, 0xD000⟩, by decide, rfl, fits_formatXYN _ _ 0xd x y n (by decide)⟩

theorem EncodesLegal.skp (x : RegIdx) : EncodesLegal.Statement (.skp x) :=
  ⟨⟨"SKP_Vx", 0xF0FF, 0xE09E⟩, by decide, rfl, fits_formatX _ _ 0xe x 0x9e (by decide)⟩

theorem EncodesLegal.sknp (x : RegIdx) : EncodesLegal.Statement (.sknp x) :=
  ⟨⟨"SKNP_Vx", 0xF0FF, 0xE0A1⟩, by decide, rfl, fits_formatX _ _ 0xe x 0xa1 (by decide)⟩

theorem EncodesLegal.ldVxDt (x : RegIdx) : EncodesLegal.Statement (.ldVxDt x) :=
  ⟨⟨"LD_Vx_DT", 0xF0FF, 0xF007⟩, by decide, rfl, fits_formatX _ _ 0xf x 0x7 (by decide)⟩

theorem EncodesLegal.ldVxK (x : RegIdx) : EncodesLegal.Statement (.ldVxK x) :=
  ⟨⟨"LD_Vx_K", 0xF0FF, 0xF00A⟩, by decide, rfl, fits_formatX _ _ 0xf x 0xa (by decide)⟩

theorem EncodesLegal.ldDtVx (x : RegIdx) : EncodesLegal.Statement (.ldDtVx x) :=
  ⟨⟨"LD_DT_Vx", 0xF0FF, 0xF015⟩, by decide, rfl, fits_formatX _ _ 0xf x 0x15 (by decide)⟩

theorem EncodesLegal.ldStVx (x : RegIdx) : EncodesLegal.Statement (.ldStVx x) :=
  ⟨⟨"LD_ST_Vx", 0xF0FF, 0xF018⟩, by decide, rfl, fits_formatX _ _ 0xf x 0x18 (by decide)⟩

theorem EncodesLegal.addIVx (x : RegIdx) : EncodesLegal.Statement (.addIVx x) :=
  ⟨⟨"ADD_I_Vx", 0xF0FF, 0xF01E⟩, by decide, rfl, fits_formatX _ _ 0xf x 0x1e (by decide)⟩

theorem EncodesLegal.ldFVx (x : RegIdx) : EncodesLegal.Statement (.ldFVx x) :=
  ⟨⟨"LD_F_Vx", 0xF0FF, 0xF029⟩, by decide, rfl, fits_formatX _ _ 0xf x 0x29 (by decide)⟩

theorem EncodesLegal.ldBVx (x : RegIdx) : EncodesLegal.Statement (.ldBVx x) :=
  ⟨⟨"LD_B_Vx", 0xF0FF, 0xF033⟩, by decide, rfl, fits_formatX _ _ 0xf x 0x33 (by decide)⟩

theorem EncodesLegal.ldMemVx (x : RegIdx) : EncodesLegal.Statement (.ldMemVx x) :=
  ⟨⟨"LD_mI_Vx", 0xF0FF, 0xF055⟩, by decide, rfl, fits_formatX _ _ 0xf x 0x55 (by decide)⟩

theorem EncodesLegal.ldVxMem (x : RegIdx) : EncodesLegal.Statement (.ldVxMem x) :=
  ⟨⟨"LD_Vx_mI", 0xF0FF, 0xF065⟩, by decide, rfl, fits_formatX _ _ 0xf x 0x65 (by decide)⟩

end Sys2Proof.Laws
end

