-- ==== Sys2Proof/Laws/Step.lean ====
section
/-! SUPPORT. Everything one step can do (spec 00_scope.md R8, 30_encoding.md R54), and what the transactions of the
host leave (70_reset_and_hazards.md R150, R151). -/

namespace Sys2Proof.Machine

/-! ### Frames -/

/-- A frame is its list of parts: to agree outside some parts is to agree outside more. -/
theorem agreeOutside_mono {ps qs : List Part} {s t : State} (h : agreeOutside ps s t)
    (hsub : ∀ p, p ∈ ps → p ∈ qs) : agreeOutside qs s t :=
  fun p hp => h p fun hin => hp (hsub p hin)

/-- A raised fault writes the three status fields and nothing else (R120). -/
theorem State.raise_agreeOutside (s : State) (cause : FaultCause) (info : Word) :
    agreeOutside [.status] s (s.raise cause info) := by
  intro p hp
  cases p <;> simp_all [Part.same]

/-! ### The instruction cycle (R54) -/

/-- Everything the instruction cycle can do: nothing in FAULTED, or one of the two faults before
execution, or the instruction the fetched word stands for. -/
theorem State.cycle_cases (s : State) :
    (s.run = .faulted ∧ s.cycle = .next s) ∨
      (s.run = .running ∧ 0x0FFF ≤ s.pc.toNat ∧ s.cycle = .next (s.raise .pcOutOfBounds s.pc)) ∨
      (s.run = .running ∧ s.pc.toNat < 0x0FFF ∧
        decodeWord (Memory.readWord s.mem s.pc.toNat) = none ∧
        s.cycle = .next (s.raise .unimplementedOpcode (Memory.readWord s.mem s.pc.toNat))) ∨
      ∃ i, s.run = .running ∧ s.pc.toNat < 0x0FFF ∧
        decodeWord (Memory.readWord s.mem s.pc.toNat) = some i ∧ s.cycle = .next (after s i) := by
  cases hr : s.run with
  | faulted => exact .inl ⟨rfl, by simp [State.cycle, hr]⟩
  | running =>
    by_cases hp : 0x0FFF ≤ s.pc.toNat
    · exact .inr (.inl ⟨rfl, hp, by simp [State.cycle, hr, State.fetchWord, hp]⟩)
    · have hp' : s.pc.toNat < 0x0FFF := by omega
      cases hd : decodeWord (Memory.readWord s.mem s.pc.toNat) with
      | none => exact .inr (.inr (.inl ⟨rfl, hp', rfl, by simp [State.cycle, hr, State.fetchWord, hp, hd]⟩))
      | some i =>
        refine .inr (.inr (.inr ⟨i, rfl, hp', rfl, ?_⟩))
        simp [State.cycle, hr, State.fetchWord, hp, hd, exec_eq_after]

/-- Everything a step can do: the instruction cycle on sampled inputs, or one of the other three
transactions. -/
theorem step_cases (s : State) :
    (∃ keys rnd, s.nextTransaction = .step keys rnd ∧ step s = (s.begun keys rnd).cycle) ∨
      (s.nextTransaction = .tick ∧ step s = .next s.consume.tick) ∨
      (s.nextTransaction = .reset ∧ step s = .next s.consume.resetCore) ∨
      ∃ image, s.nextTransaction = .load image ∧ step s = .next (s.consume.load image) := by
  simp only [step, State.transact, State.begun]
  cases h : s.nextTransaction <;> simp

/-! ### Reset and Load (R150, R151) -/

@[simp] theorem State.resetCore_schedule (s : State) : s.resetCore.schedule = s.schedule := rfl
@[simp] theorem State.resetCore_draws (s : State) : s.resetCore.draws = s.draws := rfl

/-- After Reset the core is as State.reset, whatever it was (R150). -/
theorem State.resetCore_agreeOutside (s : State) : agreeOutside [.queue] State.reset s.resetCore := by
  intro p hp
  cases p with
  | queue => exact absurd (by simp) hp
  | status => exact ⟨rfl, rfl, rfl⟩
  | inputs => exact ⟨rfl, rfl⟩
  | regs | stack | memory => exact fun _ => rfl
  | frame => exact fun _ _ => rfl
  | index | pc | sp | delay | sound => exact rfl

/-- All Load can do: the reset state with the image copied, or the reset state alone (R151). -/
theorem State.load_cases (s : State) (image : List Byte) :
    (image.length ≤ Config.imageMax ∧
        s.load image = s.resetCore.setMem (Memory.writeBytes [] 0x200 image)) ∨
      (Config.imageMax < image.length ∧ s.load image = s.resetCore) := by
  by_cases h : Config.imageMax < image.length
  · exact .inr ⟨h, by simp [State.load, loadResult, h]⟩
  · exact .inl ⟨by omega, by simp [State.load, loadResult, h]; rfl⟩

end Sys2Proof.Machine
end

