-- ==== Sys2Proof/Tests/Slice0.lean ====
section
/-! SUPPORT. The model's own tests: every constructor's decoding by a word written out from R57, the vectors of
spec/95_test_vectors.md, and for each statement with hypotheses a witness that meets them. -/

namespace Sys2Proof.Tests

open Sys2Proof.Machine

/-- The state after Load of an image, with the inputs of the next Step fixed. -/
def boot (image : List Byte) (keys : BitVec 16 := 0) (rnd : Byte := 0) : State :=
  { State.reset.load image with schedule := [.step keys rnd] }

/-- What a step that answers a next state leaves in some fields. -/
def look {α : Type} (f : State → α) (o : Host.Outcome State Fault Refusal) : Option α :=
  match o with
  | .next t => some (f t)
  | .fault _ => none
  | .refused _ => none

/-- The status fields as the host reads them, and pc: a FAULT vector of 95_test_vectors.md. -/
def status (t : State) : BitVec 1 × BitVec 3 × Word × Word :=
  (t.run.bit, t.faultCause.code, t.faultInfo, t.pc)

/-- A register file with two registers set. -/
def withRegs (s : State) (x : RegIdx) (a : Byte) (y : RegIdx) (b : Byte) : State :=
  (s.setReg x a).setReg y b

/-! ### Decoding: words written out from the encodings of R57 -/

theorem test_decode_display :
    decodeWord 0b0000000011100000 = some .cls ∧
      decodeWord 0b1101101001011111 = some (.drw 0xA 0x5 0xF) := by decide

theorem test_decode_control_flow :
    decodeWord 0b0000000011101110 = some .ret ∧
      decodeWord 0b0001101010111100 = some (.jp 0xABC) ∧
      decodeWord 0b0010001000001010 = some (.call 0x20A) ∧
      decodeWord 0b0011001100101010 = some (.seImm 0x3 0x2A) ∧
      decodeWord 0b0100001100101010 = some (.sneImm 0x3 0x2A) ∧
      decodeWord 0b0101000100100000 = some (.seReg 0x1 0x2) ∧
      decodeWord 0b1001000100100000 = some (.sneReg 0x1 0x2) ∧
      decodeWord 0b1011001100000000 = some (.jpV0 0x300) := by decide

theorem test_decode_register_alu :
    decodeWord 0b0110101000101111 = some (.ldImm 0xA 0x2F) ∧
      decodeWord 0b0111001100000101 = some (.addImm 0x3 0x05) ∧
      decodeWord 0b1000000100100000 = some (.ldReg 0x1 0x2) ∧
      decodeWord 0b1000000100100001 = some (.orReg 0x1 0x2) ∧
      decodeWord 0b1000000100100010 = some (.andReg 0x1 0x2) ∧
      decodeWord 0b1000000100100011 = some (.xorReg 0x1 0x2) ∧
      decodeWord 0b1000000100100100 = some (.addReg 0x1 0x2) ∧
      decodeWord 0b1000000100100101 = some (.subReg 0x1 0x2) ∧
      decodeWord 0b1000000100100110 = some (.shr 0x1 0x2) ∧
      decodeWord 0b1000000100100111 = some (.subnReg 0x1 0x2) ∧
      decodeWord 0b1000000100101110 = some (.shl 0x1 0x2) ∧
      decodeWord 0b1100001100001111 = some (.rnd 0x3 0x0F) := by decide

theorem test_decode_index_memory :
    decodeWord 0b1010001011110000 = some (.ldI 0x2F0) ∧
      decodeWord 0b1111010000011110 = some (.addIVx 0x4) ∧
      decodeWord 0b1111000100101001 = some (.ldFVx 0x1) ∧
      decodeWord 0b1111000100110011 = some (.ldBVx 0x1) ∧
      decodeWord 0b1111001001010101 = some (.ldMemVx 0x2) ∧
      decodeWord 0b1111001001100101 = some (.ldVxMem 0x2) := by decide

theorem test_decode_keypad_timers :
    decodeWord 0b1110001010011110 = some (.skp 0x2) ∧
      decodeWord 0b1110001010100001 = some (.sknp 0x2) ∧
      decodeWord 0b1111001100000111 = some (.ldVxDt 0x3) ∧
      decodeWord 0b1111001100001010 = some (.ldVxK 0x3) ∧
      decodeWord 0b1111001100010101 = some (.ldDtVx 0x3) ∧
      decodeWord 0b1111001100011000 = some (.ldStVx 0x3) := by decide

/-- Big-endian (95, "other literals"): A1 23 is LD I, 0x123, not the call 23A1. -/
theorem test_decode_big_endian :
    decode [0xA1, 0x23, 0x77] = .ok (.ldI 0x123, [0x77]) := by rfl

theorem test_decode_rejects_by_name :
    decode [0x81] = .error .truncated ∧
      decode [0x81, 0x28] = .error (.unimplementedOpcode 0x8128) := ⟨rfl, rfl⟩

/-- The well-formedness check refuses an illegal word of each family that has one (R58). -/
theorem test_wellformed_refuses :
    wordLegal 0x0000 = false ∧ wordLegal 0x00E1 = false ∧ wordLegal 0x0ABC = false ∧
      wordLegal 0x5121 = false ∧ wordLegal 0x8128 = false ∧ wordLegal 0x812F = false ∧
      wordLegal 0x9121 = false ∧ wordLegal 0xE29F = false ∧ wordLegal 0xF134 = false ∧
      wordLegal 0xFFFF = false := by decide

theorem test_wellformed_accepts :
    opcodeMap.length = 34 ∧ wordLegal 0x00E0 = true ∧ wordLegal 0x5120 = true ∧
      wordLegal 0x812E = true ∧ wordLegal 0xF165 = true := by decide

/-! ### Reset, Load, fetch -/

/-- Vector P7c. -/
theorem test_step_empty_memory : look status (step (boot [])) = some (1, 2, 0x0000, 0x0200) := by decide

/-- R31: glyph A at 0x032, glyph 1 at 0x005. -/
theorem test_font :
    Memory.readBytes State.reset.mem 0x032 5 = [0xF0, 0x90, 0xF0, 0x90, 0x90] ∧
      Memory.readBytes State.reset.mem 0x005 5 = [0x20, 0x60, 0x20, 0x20, 0x70] ∧
      font.length = 80 := by decide

/-- Vectors tik8 and S10c. -/
theorem test_load :
    (fun s : State => (Memory.read s.mem 0x200, Memory.read s.mem 0x201, s.reg 3, s.run.bit))
        ((((State.reset.setReg 3 9).raise .unimplementedOpcode 0).load [0x12, 0x00])) =
      (0x12, 0x00, 0x00, 0) := by decide

/-- A write of the byte an unlisted address reads as takes the entry off. -/
theorem test_memory_canonical :
    Memory.write [] 0x000 0xF0 = [] ∧ Memory.write [(0x300, 5)] 0x300 0 = [] ∧
      Memory.write [(0x300, 5)] 0x2FF 7 = [(0x2FF, 7), (0x300, 5)] := by decide

/-- Vectors ctl6 and flt1a. -/
theorem test_fetch_guard :
    look status (step ((boot []).setPc 0x0FFF)) = some (1, 1, 0x0FFF, 0x0FFF) := by decide

/-- Vector tik6: FAULTED, a Step changes nothing. -/
theorem test_faulted_step :
    look (fun t => (status t, t.reg 0xA)) (step ((boot [0x6A, 0x2F]).raise .stackOverflow 0x0300)) =
      some ((1, 3, 0x0300, 0x0200), 0x00) := by decide

/-- Vectors tik2, tik5. -/
theorem test_tick :
    look (fun t => (t.dt, t.st, t.run.bit))
        (step { (State.reset.setSt 1).raise .stackOverflow 0 with schedule := [.tick] }) =
      some (0, 0, 1) := by decide

/-- The fixed-name functions: a table word is stored big-endian at pc. -/
theorem test_with_fetch_word :
    (State.reset.withFetchWord 16 0x6A2F).fetchWord = some 0x6A2F ∧
      look (fun t => (t.reg 0xA, t.pc)) (step (State.reset.withFetchWord 16 0x6A2F)) =
        some (0x2F, 0x0202) := by decide

/-! ### Display -/

/-- Vector S2a. -/
theorem test_cls :
    look (fun t => (t.cell 3 5, t.cell 31 63, t.cell 0 0, t.pc))
        (step ((boot [0x00, 0xE0]).setFb (((Frame.clear.flip 3 5).flip 31 63).flip 0 0))) =
      some (false, false, false, 0x0202) := by decide

/-- Vector dsp11: the column is the old VF, and VF then holds the flag. -/
theorem test_drw_x_is_vf :
    look (fun t => (t.cell 2 3, t.cell 2 0, t.reg 0xF, t.pc))
        (step ((withRegs (boot [0xDF, 0x11]) 0xF 3 1 2).setI 0x300 |>.setMem
          [(0x200, 0xDF), (0x201, 0x11), (0x300, 0x80)])) =
      some (true, false, 0x00, 0x0202) := by decide

/-- Vector dsp9 in the last columns, clipped as in dsp3: one pixel set, one collided, six clipped. -/
theorem test_drw_collides_and_clips :
    look (fun t => (t.cell 10 62, t.cell 10 63, t.cell 11 0, t.cell 10 0, t.reg 0xF))
        (exec (.drw 0 1 1) ((withRegs State.reset 0 62 1 10).setI 0x300 |>.setMem [(0x300, 0xFF)]
          |>.setFb (Frame.clear.flip 10 63))) =
      some (true, false, false, false, 0x01) := by decide

/-! ### Control flow -/

/-- Vector ctl1. -/
theorem test_ret :
    look (fun t => (t.sp, t.pc, t.stackAt 0))
        (exec .ret (((State.reset.setPc 0x0204).push 0x0204).setPc 0x020C)) =
      some (0, 0x0206, 0x0204) := by decide

/-- Vector flt4. -/
theorem test_ret_underflow :
    look status (step (boot [0x00, 0xEE])) = some (1, 4, 0x0200, 0x0200) := by decide

/-- Vector ctl7: an odd address below 0x200. -/
theorem test_jp : look State.pc (step (boot [0x10, 0x01])) = some 0x0001 := by decide

/-- Vector ctl8: the call site is pushed, and the fetch works at an odd address. -/
theorem test_call :
    look (fun t => (t.stackAt 0xE, t.sp, t.pc))
        (step { (boot []).setPc 0x0345 with sp := 0xE, mem := [(0x345, 0x2A), (0x346, 0xBC)] }) =
      some (0x0345, 0xF, 0x0ABC) := by decide

/-- Vector ctl9. -/
theorem test_call_overflow :
    look (fun t => (status t, t.stackAt 0xF))
        (exec (.call 0xABC) { State.reset.setPc 0x0300 with sp := 0xF }) =
      some ((1, 3, 0x0300, 0x0300), 0x0000) := by decide

/-- Vectors ctl10, ctl11. -/
theorem test_se_imm :
    look State.pc (exec (.seImm 3 0x2A) ((State.reset.setReg 3 0x2A).setPc 0x0300)) = some 0x0304 ∧
      look State.pc (exec (.seImm 3 0x2A) ((State.reset.setReg 3 0x2B).setPc 0x0300)) =
        some 0x0302 := by decide

/-- Vectors ctl12, ctl13. -/
theorem test_sne_imm :
    look State.pc (exec (.sneImm 3 0x2A) ((State.reset.setReg 3 0x2A).setPc 0x0300)) = some 0x0302 ∧
      look State.pc (exec (.sneImm 3 0x2A) ((State.reset.setReg 3 0x00).setPc 0x0300)) =
        some 0x0304 := by decide

/-- Vectors ctl14, ctl17, ctl18. -/
theorem test_skip_on_registers :
    look State.pc (exec (.seReg 1 2) ((withRegs State.reset 1 7 2 7).setPc 0x0210)) = some 0x0214 ∧
      look State.pc (exec (.sneReg 1 2) ((withRegs State.reset 1 7 2 8).setPc 0x0210)) = some 0x0214 ∧
      look State.pc (exec (.sneReg 1 2) ((withRegs State.reset 1 7 2 7).setPc 0x0210)) =
        some 0x0212 := by decide

/-- Vectors ctl21, ctl22: the sum is not reduced modulo 4096. -/
theorem test_jp_v0 :
    look State.pc (exec (.jpV0 0xFFF) (State.reset.setReg 0 0x02)) = some 0x1001 ∧
      look State.pc (exec (.jpV0 0xFFF) (State.reset.setReg 0 0xFF)) = some 0x10FE := by decide

/-! ### Registers and the ALU -/

/-- Vector S3b. -/
theorem test_ld_imm :
    look (fun t => (t.reg 0xF, t.pc)) (step ((boot [0x6F, 0xFF]).setReg 0xF 1)) =
      some (0xFF, 0x0202) := by decide

/-- Vector S4b. -/
theorem test_add_imm_wraps :
    look (fun t => (t.reg 3, t.reg 0xF)) (exec (.addImm 3 1) (withRegs State.reset 3 0xFF 0xF 0x55)) =
      some (0x00, 0x55) := by decide

/-- Vector alu6. -/
theorem test_ld_reg :
    look (fun t => t.reg 1) (exec (.ldReg 1 2) (State.reset.setReg 2 0x7E)) = some 0x7E := by decide

/-- Vectors alu7, alu8, alu9. -/
theorem test_bitwise :
    look (fun t => (t.reg 1, t.reg 0xF))
        (exec (.orReg 1 2) ((withRegs State.reset 1 0xF0 2 0x0F).setReg 0xF 0x55)) = some (0xFF, 0x55) ∧
      look (fun t => t.reg 1) (exec (.andReg 1 2) (withRegs State.reset 1 0xFC 2 0x3F)) = some 0x3C ∧
      look (fun t => t.reg 1) (exec (.xorReg 1 2) (withRegs State.reset 1 0xFF 2 0x0F)) =
        some 0xF0 := by decide

/-- Vectors alu11, alu15. -/
theorem test_add_reg :
    look (fun t => (t.reg 1, t.reg 0xF)) (exec (.addReg 1 2) (withRegs State.reset 1 0xFF 2 0x01)) =
        some (0x00, 1) ∧
      look (fun t => t.reg 0xF) (exec (.addReg 0xF 1) (withRegs State.reset 0xF 0xFF 1 0x01)) =
        some 1 := by decide

/-- Vectors alu19, alu20. -/
theorem test_sub_reg :
    look (fun t => (t.reg 1, t.reg 0xF)) (exec (.subReg 1 2) (withRegs State.reset 1 3 2 5)) =
        some (0xFE, 0) ∧
      look (fun t => (t.reg 1, t.reg 0xF)) (exec (.subReg 1 2) (withRegs State.reset 1 7 2 7)) =
        some (0x00, 1) := by decide

/-- Vectors alu23, alu26: V[y] is shifted; the flag is written last. -/
theorem test_shr :
    look (fun t => (t.reg 1, t.reg 0xF, t.reg 2)) (exec (.shr 1 2) (withRegs State.reset 1 0xAA 2 5)) =
        some (2, 1, 5) ∧
      look (fun t => t.reg 0xF) (exec (.shr 0xF 1) (withRegs State.reset 1 2 0xF 7)) = some 0 := by decide

/-- Vectors alu27, alu30. -/
theorem test_subn_reg :
    look (fun t => (t.reg 1, t.reg 0xF)) (exec (.subnReg 1 2) (withRegs State.reset 1 3 2 5)) =
        some (2, 1) ∧
      look (fun t => (t.reg 1, t.reg 0xF)) (exec (.subnReg 1 2) (withRegs State.reset 1 0xFF 2 0)) =
        some (1, 0) := by decide

/-- Vectors alu31, alu33. -/
theorem test_shl :
    look (fun t => (t.reg 1, t.reg 0xF, t.reg 2)) (exec (.shl 1 2) (withRegs State.reset 1 0xAA 2 0x81)) =
        some (2, 1, 0x81) ∧
      look (fun t => t.reg 0xF) (exec (.shl 0xF 0xF) (State.reset.setReg 0xF 0x81)) = some 1 := by decide

/-- Vector alu36. -/
theorem test_rnd :
    look (fun t => t.reg 3) (step (boot [0xC3, 0x0F] 0 0xA7)) = some 0x07 := by decide

/-! ### Index register and memory -/

/-- Vector mem1. -/
theorem test_ld_i : look State.i (step (boot [0xA2, 0xF0])) = some 0x02F0 := by decide

/-- Vector mem5. -/
theorem test_add_i :
    look (fun t => (t.i, t.reg 0xF)) (exec (.addIVx 1) ((withRegs State.reset 1 2 0xF 7).setI 0xFFFF)) =
      some (0x0001, 7) := by decide

/-- Vectors mem8, mem10. -/
theorem test_ld_f :
    look State.i (exec (.ldFVx 1) (State.reset.setReg 1 0x0F)) = some 0x004B ∧
      look State.i (exec (.ldFVx 1) (State.reset.setReg 1 0xFF)) = some 0x04FB := by decide

/-- Vectors S9a, mem15. -/
theorem test_ld_b :
    look (fun t => (Memory.readBytes t.mem 0x300 3, t.i))
        (exec (.ldBVx 1) ((State.reset.setReg 1 229).setI 0x300)) = some ([2, 2, 9], 0x300) ∧
      look (fun t => Memory.readBytes t.mem 0xFFD 3)
        (exec (.ldBVx 1) ((State.reset.setReg 1 123).setI 0xFFD)) = some [1, 2, 3] := by decide

/-- Vector mem16. -/
theorem test_ld_b_out_of_bounds :
    look (fun t => (status t, t.mem)) (exec (.ldBVx 1) ((State.reset.setReg 1 123).setI 0xFFE)) =
      some ((1, 5, 0x1000, 0x0200), []) := by decide

/-- Vector mem18. -/
theorem test_store_registers :
    look (fun t => (Memory.readBytes t.mem 0x300 4, t.i))
        (exec (.ldMemVx 2) ((withRegs (State.reset.setReg 0 0x11) 1 0x22 2 0x33).setI 0x300)) =
      some ([0x11, 0x22, 0x33, 0], 0x303) := by decide

/-- Vector mem20, with one register. -/
theorem test_store_registers_out_of_bounds :
    look (fun t => (status t, t.i, t.mem)) (exec (.ldMemVx 0xF) ((State.reset.setReg 0 1).setI 0xFF1)) =
      some ((1, 5, 0x1000, 0x0200), 0xFF1, []) := by decide

/-- Vectors mem23, mem21. -/
theorem test_load_registers :
    look (fun t => (t.reg 0, t.reg 1, t.reg 2, t.reg 3, t.i)) (exec (.ldVxMem 2) State.reset) =
        some (0xF0, 0x90, 0x90, 0, 3) ∧
      look (fun t => (t.reg 0, t.i)) (exec (.ldVxMem 0) ((State.reset.setI 0xFFF).setMem [(0xFFF, 0x77)])) =
        some (0x77, 0x1000) := by decide

/-- Vector mem25. -/
theorem test_load_registers_out_of_bounds :
    look status (exec (.ldVxMem 0) (State.reset.setI 0x2000)) = some (1, 5, 0x2000, 0x0200) := by decide

/-! ### Keypad and timers -/

/-- Vectors key1, key2. -/
theorem test_skp :
    look State.pc (step ((boot [0xE2, 0x9E] 0x0020).setReg 2 5)) = some 0x0204 ∧
      look State.pc (step ((boot [0xE2, 0x9E] 0xFFDF).setReg 2 5)) = some 0x0202 := by decide

/-- Vectors key4, key5. -/
theorem test_sknp :
    look State.pc (step ((boot [0xE2, 0xA1] 0x8000).setReg 2 0xF)) = some 0x0202 ∧
      look status (step ((boot [0xE2, 0xA1] 0xFFFF).setReg 2 0x10)) =
        some (1, 6, 0x0010, 0x0200) := by decide

/-- Vector key13. -/
theorem test_ld_vx_dt :
    look (fun t => (t.reg 3, t.dt)) (exec (.ldVxDt 3) (State.reset.setDt 0x1E)) = some (0x1E, 0x1E) := by decide

/-- Vectors key8, key12. -/
theorem test_ld_vx_k :
    look (fun t => (t.reg 3, t.pc)) (step (boot [0xF3, 0x0A] 0x0000)) = some (0, 0x0200) ∧
      look (fun t => (t.reg 3, t.pc)) (step (boot [0xF3, 0x0A] 0x0280)) = some (7, 0x0202) := by decide

/-- Vectors key14, key15. -/
theorem test_ld_timers :
    look (fun t => (t.dt, t.st)) (exec (.ldDtVx 3) (State.reset.setReg 3 0x3C)) = some (0x3C, 0) ∧
      look (fun t => (t.dt, t.st)) (exec (.ldStVx 3) (State.reset.setReg 3 8)) = some (0, 8) := by decide

/-! ### Witnesses: each statement's hypotheses can be met -/

/-- A state with a transaction next. -/
def next (u : Transaction) : State := { State.reset with schedule := [u] }

theorem test_witness_encode_of_decode : decodeWord 0x8127 = some (.subnReg 1 2) := by decide

theorem test_witness_opcode_map :
    ⟨"CLS", 0xFFFF, 0x00E0⟩ ∈ opcodeMap ∧ OpRow.fits ⟨"CLS", 0xFFFF, 0x00E0⟩ 0x00E0 = true := by decide

theorem test_witness_step_faulted :
    (next (.step 1 2)).nextTransaction = .step 1 2 ∧
      ((next (.step 1 2)).raise .stackOverflow 0).run = .faulted := by decide

theorem test_witness_step_fetch_fault :
    ((next (.step 1 2)).setPc 0x0FFF).nextTransaction = .step 1 2 ∧
      (next (.step 1 2)).run = .running ∧ 0x0FFF ≤ ((next (.step 1 2)).setPc 0x0FFF).pc.toNat := by decide

theorem test_witness_step_decodes :
    ((next (.step 1 2)).setPc 0x0FFE).pc.toNat < 0x0FFF ∧
      decodeWord (Memory.read [] 0xFFE ++ Memory.read [] 0xFFF) = none ∧
      decodeWord (Memory.read [(0xFFE, 0x60)] 0xFFE ++ Memory.read [(0xFFE, 0x60)] 0xFFF) =
        some (.ldImm 0 0) := by decide

theorem test_witness_transactions_in_order :
    (next .tick).schedule = [.tick] ∧ step (next .tick) = .next (next .tick).consume.tick ∧
      State.reset.schedule = [] := ⟨rfl, rfl, rfl⟩

/-- With nothing fixed a step answers too, whichever transaction comes. -/
theorem test_witness_free_transaction : ∃ t, step State.reset = .next t := by
  rcases step_cases State.reset with ⟨keys, rnd, -, h⟩ | ⟨-, h⟩ | ⟨-, h⟩ | ⟨image, -, h⟩
  · rcases State.cycle_cases (State.reset.begun keys rnd) with
      ⟨-, hc⟩ | ⟨-, -, hc⟩ | ⟨-, -, -, hc⟩ | ⟨i, -, -, -, hc⟩ <;> exact ⟨_, h.trans hc⟩
  all_goals exact ⟨_, h⟩

theorem test_witness_tick :
    (next .tick).nextTransaction = .tick ∧ 0 < ((next .tick).setDt 1).dt.toNat ∧
      (next .tick).dt = 0 ∧ 0 < ((next .tick).setSt 0xFF).st.toNat ∧ (next .tick).st = 0 := by decide

theorem test_witness_reset : ((next .reset).setReg 5 1).nextTransaction = .reset := by decide

theorem test_witness_load :
    (next (.load (List.replicate 3584 0x12))).nextTransaction = .load (List.replicate 3584 0x12) ∧
      (List.replicate 3584 (0x12 : Byte)).length ≤ 3584 ∧
      (next (.load (List.replicate 3585 0x12))).nextTransaction = .load (List.replicate 3585 0x12) ∧
      3584 < (List.replicate 3585 (0x12 : Byte)).length :=
  ⟨rfl, by rw [List.length_replicate], rfl, by rw [List.length_replicate]; decide⟩

theorem test_witness_invariant :
    CoreInv (next (.step 1 2)) ∧ ∃ t, step (next (.step 1 2)) = .next t :=
  ⟨⟨⟨List.Pairwise.nil, fun _ h => nomatch h⟩, by decide, by decide, by decide, by decide, by decide⟩,
    _, rfl⟩

theorem test_witness_memory_form :
    Memory.wf [(0x000, 0x00), (0x200, 0x12), (0xFFF, 0x01)] ∧
      Memory.wf (Memory.write (Memory.write [(0xFFF, 0x01)] 0x200 0x12) 0x000 0x00) ∧
      ∀ a, Memory.read [(0x000, 0x00), (0x200, 0x12), (0xFFF, 0x01)] a =
        Memory.read (Memory.write (Memory.write [(0xFFF, 0x01)] 0x200 0x12) 0x000 0x00) a :=
  ⟨by decide, by decide, fun _ => rfl⟩

theorem test_witness_frames :
    ∃ t, exec (.ldMemVx 3) (State.reset.setI 0xFFC) = .next t ∧
      (State.reset.setI 0xFFC).run = .running ∧ t.run = .running := ⟨_, rfl, rfl, rfl⟩

theorem test_witness_faults_are_precise :
    ∃ t, step (next (.step 1 2)) = .next t ∧ (next (.step 1 2)).run = .running ∧ t.run = .faulted :=
  ⟨_, rfl, rfl, rfl⟩

theorem test_witness_first_step :
    sameCore State.reset (next (.step 1 2)) ∧ (next (.step 1 2)).nextTransaction = .step 1 2 := by
  refine ⟨fun p hp => ?_, rfl⟩
  cases p <;> simp_all [Part.same, modelParts, next] <;> intros <;> rfl

/-- Two Ticks stand before a Step, as 93_implementation_defined.md U12 allows: DT 3, ST 1. -/
theorem test_ticks_between_steps :
    (State.steps 2 { (State.reset.setDt 3).setSt 1 with schedule := [.tick, .tick, .step 1 2] }).map
        (fun t => (t.dt, t.st, t.schedule)) =
      some (1, 0, [.step 1 2]) := by decide

/-- A Tick that stands first is taken off, and a free Step put in front where none is fixed (log entry 9). -/
theorem test_with_fetch_word_after_ticks :
    fromFirstStep 0 [.tick, .step 1 2, .tick] = [.step 1 2, .tick] ∧
      look (fun t => t.reg 0xA) (step ((next .tick).withFetchWord 16 0x6A2F)) = some 0x2F := by decide

theorem test_witness_faulted_stays :
    ((next (.step 0 0)).raise .stackOverflow 0).run = .faulted ∧
      ((next (.step 0 0)).raise .stackOverflow 0).nextTransaction = .step 0 0 ∧
      ((next .tick).raise .stackOverflow 0).nextTransaction = .tick ∧
      ((next .reset).raise .stackOverflow 0).nextTransaction = .reset ∧
      ((next (.load [0x12, 0x00])).raise .stackOverflow 0).nextTransaction = .load [0x12, 0x00] := by decide

theorem test_witness_fault_causes :
    ∃ t, exec (.skp 0) (State.reset.setReg 0 16) = .next t ∧
      (State.reset.setReg 0 16).run = .running ∧ t.run = .faulted := ⟨_, rfl, rfl, rfl⟩

theorem test_witness_inputs_read :
    (∀ x nn, Instr.skp 1 ≠ .rnd x nn) ∧ (∃ t, exec (.skp 1) State.reset = .next t) ∧
      (∀ x, Instr.rnd 1 2 ≠ .skp x ∧ Instr.rnd 1 2 ≠ .sknp x ∧ Instr.rnd 1 2 ≠ .ldVxK x) ∧
      ∃ t, exec (.rnd 1 2) State.reset = .next t :=
  ⟨by simp, ⟨_, rfl⟩, by simp, _, rfl⟩

theorem test_witness_draw_in_bounds :
    ((0 : Nibble) = 0 ∨ (State.reset.setI 0xFFFF).i.toNat + (0 : Nibble).toNat - 1 ≤ 0xFFF) ∧
      ((2 : Nibble) = 0 ∨ (State.reset.setI 0xFFE).i.toNat + (2 : Nibble).toNat - 1 ≤ 0xFFF) := by decide

theorem test_witness_draw_out_of_bounds :
    (3 : Nibble) ≠ 0 ∧ 0xFFF < (State.reset.setI 0xFFE).i.toNat + (3 : Nibble).toNat - 1 := by decide

/-- Glyph 0 at the last row and column: its first pixel lands on the corner, its second column does not. -/
theorem test_witness_draw_hits :
    spriteHits (withRegs State.reset 0 63 1 31) 0 1 5 31 63 ∧
      (State.reset.setFb (Frame.clear.flip 31 63)).cell 31 63 = true ∧ State.reset.cell 31 63 = false :=
  ⟨⟨0, 0, by decide⟩, by decide, by decide⟩

theorem test_witness_draw_misses : ¬spriteHits (withRegs State.reset 0 63 1 31) 0 1 0 31 63 := by
  rintro ⟨r, c, h, -⟩
  exact absurd h (Nat.not_lt_zero r)

theorem test_witness_draw_twice :
    (0 : RegIdx) ≠ 0xF ∧ (1 : RegIdx) ≠ 0xF ∧
      ∃ t u, exec (.drw 0 1 5) State.reset = .next t ∧ exec (.drw 0 1 5) t = .next u :=
  ⟨by decide, by decide, _, _, rfl, rfl⟩

/-- Log entry 13: the whole sprite was on before the first draw, so the second draw collides with nothing. -/
theorem test_second_draw_may_not_collide :
    look (fun t => look (fun u => u.reg 0xF) (exec (.drw 0 1 1) t))
        (exec (.drw 0 1 1) ((State.reset.setI 0x300).setMem [(0x300, 0x80)]
          |>.setFb (Frame.clear.flip 0 0))) = some (some 0x00) := by decide

theorem test_witness_return :
    (State.reset.push 0x0FFE).sp ≠ 0 ∧ State.reset.sp = 0 := by decide

theorem test_witness_call :
    ({ State.reset with sp := 14 } : State).sp ≠ 15 ∧ ({ State.reset with sp := 15 } : State).sp = 15 := by decide

theorem test_witness_skips :
    State.reset.reg 3 = 0 ∧ State.reset.reg 3 ≠ 1 ∧ State.reset.reg 1 = State.reset.reg 2 ∧
      (State.reset.setReg 1 1).reg 1 ≠ (State.reset.setReg 1 1).reg 2 := by decide

theorem test_witness_parked :
    (boot [0x12, 0x00]).nextTransaction = .step 0 0 ∧ (boot [0x12, 0x00]).run = .running ∧
      (boot [0x12, 0x00]).pc.toNat = (0x200 : Addr12).toNat ∧
      Memory.read (boot [0x12, 0x00]).mem 0x200 ++ Memory.read (boot [0x12, 0x00]).mem 0x201 =
        encode (.jp 0x200) := by decide

theorem test_witness_data_in_bounds :
    (State.reset.setI 0xFFD).i.toNat + 2 ≤ 0xFFF ∧ 0xFFF < (State.reset.setI 0xFFE).i.toNat + 2 ∧
      (State.reset.setI 0xFF0).i.toNat + (0xF : RegIdx).toNat ≤ 0xFFF ∧
      0xFFF < (State.reset.setI 0xFF1).i.toNat + (0xF : RegIdx).toNat := by decide

theorem test_witness_register_range :
    (2 : RegIdx).toNat ≤ (2 : RegIdx).toNat ∧ (2 : RegIdx).toNat < (3 : RegIdx).toNat := by decide

theorem test_witness_stores_are_fetched :
    (State.reset.setI 0xFFE).i.toNat + (1 : RegIdx).toNat ≤ 0xFFF ∧
      (0 : RegIdx).toNat < (1 : RegIdx).toNat ∧
      (0xFFE : Word).toNat = (State.reset.setI 0xFFE).i.toNat + (0 : RegIdx).toNat := by decide

theorem test_witness_keys :
    ((State.reset.setReg 2 15).reg 2).toNat ≤ 15 ∧ 15 < ((State.reset.setReg 2 16).reg 2).toNat ∧
      ((State.reset.sample 0x8000 0).keys.getLsbD 15 = true) ∧
      ((State.reset.sample 0x7FFF 0).keys.getLsbD 15 = false) ∧
      (State.reset.sample 0x0000 0).keys = 0x0000 ∧ (State.reset.sample 0x8001 0).keys ≠ 0x0000 := by decide

/-- The two forms of the flag-setting instructions, `x` other than F and `x = F`, and a sum at each side of 255. -/
theorem test_witness_flag_forms :
    (0xE : RegIdx) ≠ 0xF ∧
      Instr.shl 0xF 3 ∈ [Instr.addReg 0xF 3, .subReg 0xF 3, .shr 0xF 3, .subnReg 0xF 3, .shl 0xF 3] ∧
      ¬255 < ((withRegs State.reset 1 254 2 1).reg 1).toNat + ((withRegs State.reset 1 254 2 1).reg 2).toNat ∧
      255 < ((withRegs State.reset 1 255 2 1).reg 1).toNat + ((withRegs State.reset 1 255 2 1).reg 2).toNat := by decide

end Sys2Proof.Tests
end

section
/-! PROOFS. The queue of transactions: every step takes off the one it performs and does nothing else to it (spec
00_scope.md R8; log entries 2, 3). -/

namespace Sys2Proof.Machine

/-! ### What the guards keep (R120) -/

/-- What a guarded body keeps of the state, but for the status fields, its footprint check keeps too. -/
theorem State.guardFootprint_same {p : Part} (hp : p ≠ .status) {s body : State} (len : Nat)
    (h : p.same s body) : p.same s (s.guardFootprint len body) := by
  rcases s.guardFootprint_cases len body with ⟨hg, -⟩ | ⟨first, hg, -⟩ <;> rw [hg]
  · exact h
  · exact s.raise_agreeOutside _ first p (by simpa using hp)

/-- What a guarded body keeps of the state, but for the status fields, its key check keeps too. -/
theorem State.guardKey_same {p : Part} (hp : p ≠ .status) {s body : State} (x : RegIdx)
    (h : p.same s body) : p.same s (s.guardKey x body) := by
  rcases s.guardKey_cases x body with ⟨hg, -⟩ | ⟨hg, -⟩ <;> rw [hg]
  · exact h
  · exact s.raise_agreeOutside _ _ p (by simpa using hp)

/-! ### What a step does to the queue -/

/-- No instruction touches the queue. -/
theorem after_same_queue (s : State) (i : Instr) : Part.queue.same s (after s i) := by
  cases i with
  | ret | call =>
    simp only [after, exec, execRet, execCall]
    split <;> exact ⟨rfl, rfl⟩
  | ldVxK =>
    simp only [after, exec, execLdVxK]
    split <;> exact ⟨rfl, rfl⟩
  | drw | ldBVx | ldMemVx => exact State.guardFootprint_same (by decide) _ ⟨rfl, rfl⟩
  | ldVxMem => exact State.guardFootprint_same (by decide) _ ⟨by simp, by simp⟩
  | skp | sknp => exact State.guardKey_same (by decide) _ ⟨rfl, rfl⟩
  | cls | jp | seImm | sneImm | seReg | sneReg | ldImm | addImm | ldReg | orReg | andReg | xorReg | addReg
  | subReg | shr | subnReg | shl | ldI | jpV0 | rnd | ldVxDt | ldDtVx | ldStVx | addIVx | ldFVx =>
    exact ⟨rfl, rfl⟩

/-- The instruction cycle does not touch the queue, whether it executes or faults. -/
theorem State.cycle_same_queue {s t : State} (h : s.cycle = .next t) : Part.queue.same s t := by
  rcases s.cycle_cases with ⟨-, hc⟩ | ⟨-, -, hc⟩ | ⟨-, -, -, hc⟩ | ⟨i, -, -, -, hc⟩ <;>
    obtain rfl := Host.Outcome.next.inj (hc.symm.trans h)
  · exact ⟨rfl, rfl⟩
  · exact ⟨rfl, rfl⟩
  · exact ⟨rfl, rfl⟩
  · exact after_same_queue s i

/-- Load leaves the queue as it is, whether the image fits or not. -/
theorem State.load_same_queue (s : State) (image : List Byte) : Part.queue.same s (s.load image) := by
  rcases s.load_cases image with ⟨-, hl⟩ | ⟨-, hl⟩ <;> rw [hl] <;> exact ⟨rfl, rfl⟩

/-- All that a step does to the queue is to take off the transaction it performs. -/
theorem step_same_queue_consume {s t : State} (h : step s = .next t) : Part.queue.same s.consume t := by
  rcases step_cases s with ⟨keys, rnd, -, hs⟩ | ⟨-, hs⟩ | ⟨-, hs⟩ | ⟨image, -, hs⟩ <;> rw [hs] at h
  · exact State.cycle_same_queue (s := s.begun keys rnd) h
  all_goals obtain rfl := Host.Outcome.next.inj h
  · exact ⟨rfl, rfl⟩
  · exact ⟨rfl, rfl⟩
  · exact s.consume.load_same_queue image

/-! ### What is taken, and what remains -/

theorem State.nextTransaction_of_cons {s : State} {u : Transaction} {rest : List Transaction}
    (h : s.schedule = u :: rest) : s.nextTransaction = u := by
  simp [State.nextTransaction, h]

theorem State.nextTransaction_of_nil {s : State} (h : s.schedule = []) :
    s.nextTransaction = Config.freeTransaction s.draws := by
  simp [State.nextTransaction, h]

theorem State.consume_draws_of_cons {s : State} {u : Transaction} {rest : List Transaction}
    (h : s.schedule = u :: rest) : s.consume.draws = s.draws := by
  simp [State.consume, h]

theorem State.consume_draws_of_nil {s : State} (h : s.schedule = []) : s.consume.draws = s.draws + 1 := by
  simp [State.consume, h]

/-- Settles O8: whatever a step performs, the queue after it is the queue with one transaction taken. -/
theorem transactionsInOrder : Obligations.TransactionsInOrder := by
  intro s t h
  obtain ⟨hsched, hdraws⟩ := step_same_queue_consume h
  rw [State.consume_schedule] at hsched
  refine ⟨fun u rest hq => ⟨State.nextTransaction_of_cons hq, ?_, ?_⟩, fun hq => ⟨?_, ?_, ?_⟩⟩
  · rw [hsched, hq, List.tail_cons]
  · rw [hdraws, State.consume_draws_of_cons hq]
  · rw [hsched, hq, List.tail_nil]
  · rw [hdraws, State.consume_draws_of_nil hq]
  · exact State.nextTransaction_of_nil hq

end Sys2Proof.Machine
end

section
/-! PROOFS. Frames built up one update at a time, and what a footprint check that fails leaves (spec 10_state.md R29;
60_exceptions.md R120, R125, R128). -/

namespace Sys2Proof.Machine

/-! ### Frames compose -/

theorem Part.same_trans {p : Part} {s t u : State} (h : p.same s t) (h' : p.same t u) : p.same s u := by
  cases p with
  | regs | stack | memory => exact fun k => (h' k).trans (h k)
  | frame => exact fun r c => (h' r c).trans (h r c)
  | index | pc | sp | delay | sound => exact Eq.trans h' h
  | status =>
    obtain ⟨hr, hc, hi⟩ := h
    obtain ⟨hr', hc', hi'⟩ := h'
    exact ⟨hr'.trans hr, hc'.trans hc, hi'.trans hi⟩
  | inputs | queue =>
    obtain ⟨h1, h2⟩ := h
    obtain ⟨h1', h2'⟩ := h'
    exact ⟨h1'.trans h1, h2'.trans h2⟩

/-- The frame of two updates in a row is both frames. -/
theorem agreeOutside.trans {ps qs : List Part} {s t u : State} (h : agreeOutside ps s t)
    (h' : agreeOutside qs t u) : agreeOutside (ps ++ qs) s u := fun p hp =>
  have ⟨hps, hqs⟩ := not_or.1 fun hin => hp (List.mem_append.2 hin)
  Part.same_trans (h p hps) (h' p hqs)

/-! ### The frame of each update -/

theorem State.setPc_agreeOutside (s : State) (w : Word) : agreeOutside [.pc] s (s.setPc w) := by
  intro p hp
  cases p <;> simp_all [Part.same]

theorem State.setI_agreeOutside (s : State) (w : Word) : agreeOutside [.index] s (s.setI w) := by
  intro p hp
  cases p <;> simp_all [Part.same]

theorem State.setReg_agreeOutside (s : State) (x : RegIdx) (w : Byte) :
    agreeOutside [.regs] s (s.setReg x w) := by
  intro p hp
  cases p <;> simp_all [Part.same]

theorem State.setFb_agreeOutside (s : State) (f : Frame) : agreeOutside [.frame] s (s.setFb f) := by
  intro p hp
  cases p <;> simp_all [Part.same]

/-! ### Faults -/

/-- Raising a fault is taking it. -/
theorem State.raise_faultsWith (s : State) (cause : FaultCause) (info : Word) :
    faultsWith s (.next (s.raise cause info)) cause info :=
  ⟨_, rfl, rfl, rfl, rfl, s.raise_agreeOutside cause info⟩

/-- A footprint that leaves memory is a fault that records the lowest address beyond, whatever the body. -/
theorem State.guardFootprint_of_leaves (s : State) {len : Nat} (body : State) (hlen : 0 < len)
    (h : Config.memSize < s.i.toNat + len) :
    s.guardFootprint len body = s.raise .memOutOfBounds (firstBeyond s.i) := by
  have hout : outOfBounds s.i len = some (firstBeyond s.i) :=
    if_pos ⟨hlen, by simp only [Config.memSize] at h; omega⟩
  simp [State.guardFootprint, hout]

end Sys2Proof.Machine
end

section
/-! PROOFS. The invariant holds after reset and every step keeps it (spec 10_state.md R28). Each operation over the
state has its own lemma; an instruction is a chain of them. -/

namespace Sys2Proof.Machine

/-! ### Reset -/

/-- Settles O17: the reset state lists no byte, records no fault and has no live stack entry. -/
theorem invariantAtReset : Obligations.InvariantAtReset where
  memory := Memory.wf_reset
  status := iff_of_true rfl rfl
  info _ := rfl
  stack _ hk := absurd hk BitVec.not_lt_zero
  top := by decide
  pc := by decide

/-! ### Jump targets -/

theorem zext12_le (nnn : Addr12) : (zext12 nnn).toNat ≤ 0x0FFF := by
  have := nnn.isLt
  simp only [zext12, BitVec.toNat_setWidth]
  omega

/-- The highest target of Bnnn, 0xFFF + 0xFF, is the bound of pc (D12). -/
theorem zext12_add_zext8_le (nnn : Addr12) (b : Byte) : (zext12 nnn + zext8 b).toNat ≤ 0x10FE := by
  have := nnn.isLt
  have := b.isLt
  simp only [zext12, zext8, BitVec.toNat_add, BitVec.toNat_setWidth]
  omega

/-! ### Updates the invariant does not see -/

section
variable {s : State} (h : CoreInv s)
include h

theorem CoreInv.setReg (x : RegIdx) (w : Byte) : CoreInv (s.setReg x w) :=
  ⟨h.memory, h.status, h.info, h.stack, h.top, h.pc⟩

theorem CoreInv.setI (w : Word) : CoreInv (s.setI w) :=
  ⟨h.memory, h.status, h.info, h.stack, h.top, h.pc⟩

theorem CoreInv.setDt (w : Byte) : CoreInv (s.setDt w) :=
  ⟨h.memory, h.status, h.info, h.stack, h.top, h.pc⟩

theorem CoreInv.setSt (w : Byte) : CoreInv (s.setSt w) :=
  ⟨h.memory, h.status, h.info, h.stack, h.top, h.pc⟩

theorem CoreInv.setFb (f : Frame) : CoreInv (s.setFb f) :=
  ⟨h.memory, h.status, h.info, h.stack, h.top, h.pc⟩

theorem CoreInv.tick : CoreInv s.tick :=
  ⟨h.memory, h.status, h.info, h.stack, h.top, h.pc⟩

theorem CoreInv.sample (keys : BitVec 16) (rnd : Byte) : CoreInv (s.sample keys rnd) :=
  ⟨h.memory, h.status, h.info, h.stack, h.top, h.pc⟩

theorem CoreInv.consume : CoreInv s.consume := by
  unfold State.consume
  split <;> exact ⟨h.memory, h.status, h.info, h.stack, h.top, h.pc⟩

theorem CoreInv.loadRegs (k : Nat) (ws : List Byte) : CoreInv (s.loadRegs k ws) := by
  induction ws generalizing s k with
  | nil => exact h
  | cons w ws ih => exact ih (h.setReg _ w) (k + 1)

/-! ### Updates that write a part the invariant speaks of -/

/-- Stores keep the canonical form of memory. -/
theorem CoreInv.writeBytes (a : Nat) (ws : List Byte) :
    CoreInv (s.setMem (Memory.writeBytes s.mem a ws)) :=
  ⟨Memory.wf_writeBytes h.memory a ws, h.status, h.info, h.stack, h.top, h.pc⟩

theorem CoreInv.setPc {w : Word} (hw : w.toNat ≤ 0x10FE) : CoreInv (s.setPc w) :=
  ⟨h.memory, h.status, h.info, h.stack, h.top, hw⟩

/-- A fault names its cause. -/
theorem CoreInv.raise {cause : FaultCause} (hc : cause ≠ .none) (info : Word) :
    CoreInv (s.raise cause info) :=
  ⟨h.memory, iff_of_false (by simp) (by simpa using hc), by simp, h.stack, h.top, h.pc⟩

/-- A call site that passed the fetch check may be pushed while an entry below the last is free (D5). -/
theorem CoreInv.push {w : Word} (hsp : s.sp ≠ 15) (hw : w.toNat ≤ 0x0FFE) : CoreInv (s.push w) where
  memory := h.memory
  status := h.status
  info := h.info
  stack k hk := by
    rw [State.push_stackAt]
    split
    · exact hw
    · refine h.stack k ?_
      rw [State.push_sp] at hk
      bv_omega
  top := by rw [State.push_stackAt, if_neg hsp.symm, h.top]
  pc := h.pc

theorem CoreInv.pop (hsp : s.sp ≠ 0) : CoreInv s.pop where
  memory := h.memory
  status := h.status
  info := h.info
  stack k hk := h.stack k (by rw [State.pop_sp] at hk; bv_omega)
  top := h.top
  pc := h.pc

/-! ### The guards -/

theorem CoreInv.guardFootprint {body : State} (len : Nat) (hb : CoreInv body) :
    CoreInv (s.guardFootprint len body) := by
  rcases s.guardFootprint_cases len body with ⟨hg, -⟩ | ⟨first, hg, -⟩ <;> rw [hg]
  · exact hb
  · exact h.raise (by decide) first

theorem CoreInv.guardKey {body : State} (x : RegIdx) (hb : CoreInv body) :
    CoreInv (s.guardKey x body) := by
  rcases s.guardKey_cases x body with ⟨hg, -⟩ | ⟨hg, -⟩ <;> rw [hg]
  · exact hb
  · exact h.raise (by decide) _

/-! ### The program counter after an instruction that was fetched -/

theorem CoreInv.advance (hpc : s.pc.toNat < 0x0FFF) : CoreInv s.advance :=
  h.setPc (by bv_omega)

theorem CoreInv.skipIf (hpc : s.pc.toNat < 0x0FFF) (c : Bool) : CoreInv (s.skipIf c) :=
  h.setPc (by split <;> bv_omega)

/-- A return lands two past a call site that passed the fetch check. -/
theorem CoreInv.ret (hsp : s.sp ≠ 0) : CoreInv (s.pop.setPc (s.stackAt (s.sp - 1) + 2)) := by
  have hsite : (s.stackAt (s.sp - 1)).toNat ≤ 0x0FFE := h.stack _ (by bv_omega)
  exact (h.pop hsp).setPc (by bv_omega)

/-! ### Instructions, the cycle, steps -/

/-- An instruction at an address that passed the fetch check keeps the invariant. -/
theorem after_coreInv (hpc : s.pc.toNat < 0x0FFF) (i : Instr) : CoreInv (after s i) := by
  cases i with
  | cls => exact (h.setFb _).advance hpc
  | ret =>
    simp only [after, exec, execRet]
    split
    · exact h.raise (by decide) _
    · exact h.ret ‹_›
  | jp nnn => exact h.setPc ((zext12_le nnn).trans (by decide))
  | call nnn =>
    simp only [after, exec, execCall, Config.maxNest]
    split
    · exact h.raise (by decide) _
    · exact (h.push (by bv_omega) (by omega)).setPc ((zext12_le nnn).trans (by decide))
  | seImm | sneImm | seReg | sneReg => exact h.skipIf hpc _
  | jpV0 nnn => exact h.setPc (zext12_add_zext8_le nnn _)
  | ldImm | addImm | ldReg | orReg | andReg | xorReg | rnd | ldVxDt => exact (h.setReg _ _).advance hpc
  | addReg | subReg | shr | subnReg | shl => exact ((h.setReg _ _).setReg _ _).advance hpc
  | ldI | addIVx | ldFVx => exact (h.setI _).advance hpc
  | drw => exact h.guardFootprint _ (((h.setFb _).setReg _ _).advance hpc)
  | skp | sknp => exact h.guardKey _ (h.skipIf hpc _)
  | ldVxK =>
    simp only [after, exec, execLdVxK]
    split
    · exact h
    · exact (h.setReg _ _).advance hpc
  | ldDtVx => exact (h.setDt _).advance hpc
  | ldStVx => exact (h.setSt _).advance hpc
  | ldBVx => exact h.guardFootprint _ ((h.writeBytes _ _).advance hpc)
  | ldMemVx => exact h.guardFootprint _ (((h.writeBytes _ _).setI _).advance hpc)
  | ldVxMem => exact h.guardFootprint _ (((h.loadRegs _ _).setI _).advance (by simpa using hpc))

theorem CoreInv.cycle {t : State} (ht : s.cycle = .next t) : CoreInv t := by
  rcases s.cycle_cases with ⟨-, hc⟩ | ⟨-, -, hc⟩ | ⟨-, -, -, hc⟩ | ⟨i, -, hpc, -, hc⟩ <;>
    obtain rfl := Host.Outcome.next.inj (hc.symm.trans ht)
  · exact h
  · exact h.raise (by decide) _
  · exact h.raise (by decide) _
  · exact after_coreInv h hpc i

end

/-- Reset leaves the invariant, whatever the state was. -/
theorem State.resetCore_coreInv (s : State) : CoreInv s.resetCore :=
  have h : CoreInv State.reset := invariantAtReset
  ⟨h.memory, h.status, h.info, h.stack, h.top, h.pc⟩

/-- Load leaves the invariant, whatever the state was and whether the image fits or not. -/
theorem State.load_coreInv (s : State) (image : List Byte) : CoreInv (s.load image) := by
  rcases s.load_cases image with ⟨-, hl⟩ | ⟨-, hl⟩ <;> rw [hl]
  · exact s.resetCore_coreInv.writeBytes _ image
  · exact s.resetCore_coreInv

/-- Settles O18: by the four transactions; a Step by what its cycle can do, and that by the instruction. -/
theorem invariantKeptByEveryStep : Obligations.InvariantKeptByEveryStep := by
  intro s t h ht
  rcases step_cases s with ⟨keys, rnd, -, hs⟩ | ⟨-, hs⟩ | ⟨-, hs⟩ | ⟨image, -, hs⟩ <;> rw [hs] at ht
  · exact (h.consume.sample keys rnd).cycle ht
  all_goals obtain rfl := Host.Outcome.next.inj ht
  · exact h.consume.tick
  · exact s.consume.resetCore_coreInv
  · exact s.consume.load_coreInv image

end Sys2Proof.Machine
end

section
/-! PROOFS. The words of an instruction: what is decoded encodes to the word it came from, and what a masked word
says of the word's fields (spec 30_encoding.md R51, R52, R55, R57). -/

namespace Sys2Proof

/-! ### A decoded word is the instruction's encoding -/

theorem formatNNN_of_fam {w : Word} {f : Nibble} (hf : (fieldFam w).toNat = f.toNat) :
    formatNNN f (fieldNNN w) = w :=
  BitVec.eq_of_toNat_eq hf ▸ formatNNN_fields w

theorem formatXNN_of_fam {w : Word} {f : Nibble} (hf : (fieldFam w).toNat = f.toNat) :
    formatXNN f (fieldX w) (fieldNN w) = w :=
  BitVec.eq_of_toNat_eq hf ▸ formatXNN_fields w

theorem formatXYN_of_fam {w : Word} {f : Nibble} (hf : (fieldFam w).toNat = f.toNat) :
    formatXYN f (fieldX w) (fieldY w) (fieldN w) = w :=
  BitVec.eq_of_toNat_eq hf ▸ formatXYN_fields w

theorem formatXYN_of_fam_of_n {w : Word} {f n : Nibble} (hf : (fieldFam w).toNat = f.toNat) (hn : fieldN w = n) :
    formatXYN f (fieldX w) (fieldY w) n = w :=
  hn ▸ formatXYN_of_fam hf

theorem formatXYN_congr {f : Nibble} {x y : RegIdx} {n m : Nibble} (h : n.toNat = m.toNat) :
    formatXYN f x y m = formatXYN f x y n :=
  congrArg _ (BitVec.eq_of_toNat_eq h.symm)

theorem formatXNN_congr {f : Nibble} {x : RegIdx} {nn mm : Byte} (h : nn.toNat = mm.toNat) :
    formatXNN f x mm = formatXNN f x nn :=
  congrArg _ (BitVec.eq_of_toNat_eq h.symm)

/-- In family 8 the sub-opcode of the branch taken is the word's own `n`. -/
theorem encode_of_decodeFamily8 {x y : RegIdx} {n : Nibble} {i : Instr}
    (h : decodeFamily8 x y n = some i) : encode i = formatXYN 0x8 x y n := by
  unfold decodeFamily8 at h
  split at h <;> rename_i hn <;> cases h <;> exact formatXYN_congr hn

/-- In family E the sub-opcode of the branch taken is the word's own `nn`. -/
theorem encode_of_decodeFamilyE {x : RegIdx} {nn : Byte} {i : Instr}
    (h : decodeFamilyE x nn = some i) : encode i = formatXNN 0xE x nn := by
  unfold decodeFamilyE at h
  split at h <;> rename_i hn <;> cases h <;> exact formatXNN_congr hn

/-- In family F the sub-opcode of the branch taken is the word's own `nn`. -/
theorem encode_of_decodeFamilyF {x : RegIdx} {nn : Byte} {i : Instr}
    (h : decodeFamilyF x nn = some i) : encode i = formatXNN 0xF x nn := by
  unfold decodeFamilyF at h
  split at h <;> rename_i hn <;> cases h <;> exact formatXNN_congr hn

/-- The encoder gives back every word the decoder accepts, by the branches of the decision tree (R55). -/
theorem encode_of_decodeWord {w : Word} {i : Instr} (h : decodeWord w = some i) : encode i = w := by
  unfold decodeWord at h
  split at h <;> rename_i hf
  -- family 0: the two words themselves
  case h_1 =>
    split_ifs at h with h1 h2 <;> cases h
    · exact h1.symm
    · exact h2.symm
  -- formats NNN and XNN
  case h_2 | h_3 | h_11 | h_12 => cases h; exact formatNNN_of_fam hf
  case h_4 | h_5 | h_7 | h_8 | h_13 => cases h; exact formatXNN_of_fam hf
  -- format XY with `n = 0`, then family 8, then Dxyn
  case h_6 | h_10 =>
    split_ifs at h with hn
    cases h
    exact formatXYN_of_fam_of_n hf hn
  case h_9 => exact (encode_of_decodeFamily8 h).trans (formatXYN_of_fam hf)
  case h_14 => cases h; exact formatXYN_of_fam hf
  -- families E and F
  case h_15 => exact (encode_of_decodeFamilyE h).trans (formatXNN_of_fam hf)
  case h_16 => exact (encode_of_decodeFamilyF h).trans (formatXNN_of_fam hf)
  case h_17 => cases h

/-! ### What a masked word says of the word's fields -/

theorem and_F000 (w : Word) : w &&& 0xF000 = formatNNN (fieldFam w) 0 := by
  have h := fits_formatNNN "" _ (fieldFam w) (fieldNNN w) rfl
  rw [formatNNN_fields] at h
  exact beq_iff_eq.1 h

theorem and_F0FF (w : Word) : w &&& 0xF0FF = formatXNN (fieldFam w) 0 (fieldNN w) := by
  have h := fits_formatX "" _ (fieldFam w) (fieldX w) (fieldNN w) rfl
  rw [formatXNN_fields] at h
  exact beq_iff_eq.1 h

/-- A word with the fixed bits of a row that fixes the family alone is of that family. -/
theorem fieldFam_of_and_F000 {w p : Word} (h : w &&& 0xF000 = p) : fieldFam w = fieldFam p := by
  rw [← h, and_F000, fieldFam_formatNNN]

/-- A word with the fixed bits of a row that fixes the family and `nn` has both. -/
theorem fields_of_and_F0FF {w p : Word} (h : w &&& 0xF0FF = p) :
    fieldFam w = fieldFam p ∧ fieldNN w = fieldNN p := by
  rw [← h, and_F0FF, fieldFam_formatXNN, fieldNN_formatXNN]
  exact ⟨rfl, rfl⟩

/-- The words of an instruction are those with its fixed bits, once these decide what is decoded and the encoder
sets them. -/
theorem Machine.encodedAs_of {mask pattern : Word} {instr : Word → Instr}
    (hdec : ∀ w, w &&& mask = pattern → decodeWord w = some (instr w))
    (henc : ∀ w, encode (instr w) &&& mask = pattern) : Machine.encodedAs mask pattern instr := by
  refine fun w => ⟨hdec w, fun h => ?_⟩
  have hw := henc w
  rwa [encode_of_decodeWord h] at hw

end Sys2Proof
end

section
/-! PROOFS. Dxyn: the fields of the words it has, the cells its blit covers, and its meaning whole (spec
40_display.md R71; 92_eei_decisions.md D7, D25). -/

namespace Sys2Proof.Machine

theorem encodedAs_drw : encodedAs 0xF000 0xD000 (fun w => .drw (fieldX w) (fieldY w) (fieldN w)) := by
  refine encodedAs_of (fun w hw => ?_) fun w => ?_
  · have hf : fieldFam w = 0xD := fieldFam_of_and_F000 hw
    simp [decodeWord, hf]
  · exact beq_iff_eq.1 (fits_formatXYN "DRW_Vx_Vy_n" _ 0xD _ _ _ (by decide))

/-! ### The cells a sprite covers -/

/-- On the grid, the cells the blit covers are the cells the sprite's 1 bits land on. -/
theorem spriteCovers_iff_spriteHits (s : State) (x y : RegIdx) (n : Nibble) (r c : Nat) :
    spriteCovers (s.reg x).toNat (s.reg y).toNat (s.sprite n) r c = true ↔
      r < 32 ∧ c < 64 ∧ spriteHits s x y n r c := by
  simp only [spriteCovers, rowCovers, spriteHits, State.sprite, Memory.length_readBytes, Bool.and_eq_true,
    decide_eq_true_eq]
  constructor
  · rintro ⟨⟨hy, hn⟩, ⟨⟨⟨⟨-, hx⟩, h8⟩, hb⟩, hr⟩, hc⟩
    rw [Memory.getD_readBytes _ _ _ _ (by omega)] at hb
    exact ⟨hr, hc, r - (s.reg y).toNat, c - (s.reg x).toNat, by omega, by omega, by omega, by omega, hb⟩
  · rintro ⟨hr, hc, row, col, hrow, hcol, rfl, rfl, hb⟩
    rw [Nat.add_sub_cancel_left, Nat.add_sub_cancel_left, Memory.getD_readBytes _ _ _ _ hrow]
    exact ⟨⟨by omega, by omega⟩, ⟨⟨⟨⟨trivial, by omega⟩, by omega⟩, hb⟩, hr⟩, hc⟩

theorem State.drawn_get_of_hits {s : State} {x y : RegIdx} {n : Nibble} {r c : Nat} (hr : r < 32) (hc : c < 64)
    (h : spriteHits s x y n r c) : (s.drawn x y n).1.get r c = !s.cell r c := by
  have hcov := (spriteCovers_iff_spriteHits s x y n r c).2 ⟨hr, hc, h⟩
  rw [State.drawn, (blit_spec _ _ _ _).1, hcov, Bool.xor_true]
  rfl

theorem State.drawn_get_of_not_hits {s : State} {x y : RegIdx} {n : Nibble} {r c : Nat}
    (h : ¬spriteHits s x y n r c) : (s.drawn x y n).1.get r c = s.cell r c := by
  have hcov := Bool.eq_false_iff.2 fun hcov => h ((spriteCovers_iff_spriteHits s x y n r c).1 hcov).2.2
  rw [State.drawn, (blit_spec _ _ _ _).1, hcov, Bool.xor_false]
  rfl

/-- The collision flag: whether a 1 of the sprite lands on a cell of the grid that was on. -/
theorem State.drawn_collided_iff (s : State) (x y : RegIdx) (n : Nibble) :
    (s.drawn x y n).2 = true ↔ ∃ r c, r < 32 ∧ c < 64 ∧ spriteHits s x y n r c ∧ s.cell r c = true := by
  rw [State.drawn, (blit_spec _ _ _ _).2]
  simp only [spriteCovers_iff_spriteHits, Bool.false_eq_true, false_or, and_assoc]
  rfl

/-! ### The instruction -/

/-- The state a draw within memory leaves. -/
def State.afterDraw (s : State) (x y : RegIdx) (n : Nibble) : State :=
  ((s.setFb (s.drawn x y n).1).setReg regF (flagByte (s.drawn x y n).2)).advance

theorem exec_drw_of_fits {s : State} {x y : RegIdx} {n : Nibble}
    (h : n = 0 ∨ s.i.toNat + n.toNat - 1 ≤ 0xFFF) : exec (.drw x y n) s = .next (s.afterDraw x y n) := by
  refine congrArg _ (s.guardFootprint_of_fits n.toNat _ (h.imp (congrArg BitVec.toNat) fun h => ?_))
  simp only [Config.memSize]
  omega

theorem exec_drw_of_leaves {s : State} {x y : RegIdx} {n : Nibble} (hn : n ≠ 0)
    (h : 0xFFF < s.i.toNat + n.toNat - 1) :
    exec (.drw x y n) s = .next (s.raise .memOutOfBounds (firstBeyond s.i)) := by
  have hpos : 0 < n.toNat := by bv_omega
  exact congrArg _ (s.guardFootprint_of_leaves _ hpos (by simp only [Config.memSize]; omega))

/-- Settles O28: the cells and VF by the law of the blit, the rest by the frames of its three writes. -/
theorem drawSprite : Obligations.DrawSprite := by
  refine ⟨encodedAs_drw, fun x y n s => ⟨fun hfit => ?_, fun hn hout => ?_⟩⟩
  · refine ⟨s.afterDraw x y n, exec_drw_of_fits hfit, fun r c hr hc => ⟨?_, ?_⟩, ?_, ?_, rfl, ?_, ?_⟩
    · exact State.drawn_get_of_hits hr hc
    · exact State.drawn_get_of_not_hits
    · exact fun hhit => (State.setReg_reg_self _ _ _).trans
        (congrArg flagByte ((s.drawn_collided_iff x y n).2 hhit))
    · exact fun hno => (State.setReg_reg_self _ _ _).trans
        (congrArg flagByte (Bool.eq_false_iff.2 (mt (s.drawn_collided_iff x y n).1 hno)))
    · exact fun k hk => (State.setReg_reg _ regF k _).trans (if_neg hk)
    · exact ((s.setFb_agreeOutside _).trans (State.setReg_agreeOutside _ _ _)).trans
        (State.setPc_agreeOutside _ _)
  · rw [exec_drw_of_leaves hn hout]
    exact s.raise_faultsWith _ _

end Sys2Proof.Machine
end

section
/-! PROOFS. A Step and the inputs of an earlier one (spec 10_state.md R24, R26). -/

namespace Sys2Proof.Machine

theorem step_of_nextTransaction_step {s : State} {keys : BitVec 16} {rnd : Byte}
    (h : s.nextTransaction = .step keys rnd) : step s = (s.begun keys rnd).cycle := by
  simp [step, State.transact, State.begun, h]

/-- The inputs a Step samples replace those that an earlier one left. -/
theorem State.begun_sample (s : State) (keys keys' : BitVec 16) (rnd rnd' : Byte) :
    (s.sample keys' rnd').begun keys rnd = s.begun keys rnd := by
  cases hq : s.schedule <;> simp [State.begun, State.consume, State.sample, hq]

/-- Settles O10: both steps run the cycle from the same begun state. -/
theorem noInputIsKept : Obligations.NoInputIsKept := by
  intro s keys keys' rnd rnd' h
  calc step (s.sample keys' rnd')
      = ((s.sample keys' rnd').begun keys rnd).cycle := step_of_nextTransaction_step h
    _ = (s.begun keys rnd).cycle := by rw [State.begun_sample]
    _ = step s := (step_of_nextTransaction_step h).symm

end Sys2Proof.Machine
end

section
/-! PROOFS. The reset state, accessor by accessor (spec 10_state.md R27; 92_eei_decisions.md D9). -/

namespace Sys2Proof.Machine

@[simp] theorem State.reset_reg (k : RegIdx) : State.reset.reg k = 0x00 := Vector.getElem_replicate _

@[simp] theorem State.reset_stackAt (k : BitVec 4) : State.reset.stackAt k = 0x0000 := Vector.getElem_replicate _

@[simp] theorem State.reset_cell (r c : Nat) : State.reset.cell r c = false := Frame.get_clear r c

/-- No byte is listed after reset, so each reads as its reset contents. -/
theorem State.reset_read (a : Nat) : Memory.read State.reset.mem a = font.getD a 0x00 := rfl

theorem length_font : font.length = 80 := rfl

/-- Settles O13: every accessor of the reset state, and past the font the bytes of memory are 0x00. -/
theorem resetValues : Obligations.ResetValues := by
  refine ⟨State.reset_reg, rfl, rfl, rfl, State.reset_stackAt, rfl, rfl, State.reset_cell, length_font,
    fun a _ => State.reset_read a, fun a ha _ => ?_, rfl, rfl, rfl⟩
  rw [State.reset_read, List.getD_eq_default _ _ (length_font ▸ ha)]

end Sys2Proof.Machine
end

section
/-! PROOFS. Fx1E: its words and its sum (spec 43_index_memory.md R101; 92_eei_decisions.md D19). -/

namespace Sys2Proof.Machine

theorem encodedAs_addIVx : encodedAs 0xF0FF 0xF01E (fun w => .addIVx (fieldX w)) := by
  refine encodedAs_of (fun w hw => ?_) fun w => ?_
  · obtain ⟨(hf : fieldFam w = 0xF), (hnn : fieldNN w = 0x1E)⟩ := fields_of_and_F0FF hw
    simp [decodeWord, decodeFamilyF, hf, hnn]
  · exact beq_iff_eq.1 (fits_formatX "ADD_I_Vx" _ 0xF _ 0x1E (by decide))

theorem toNat_add_zext8 (w : Word) (b : Byte) : (w + zext8 b).toNat = (w.toNat + b.toNat) % 65536 := by
  rw [BitVec.toNat_add, zext8, BitVec.toNat_setWidth_of_le (by decide)]

/-- Settles O50: the sum is the word's own addition, and the frame that of the two writes. -/
theorem addToIndex : Obligations.AddToIndex := by
  refine ⟨encodedAs_addIVx, fun x s => ⟨_, rfl, ?_, rfl, ?_⟩⟩
  · exact toNat_add_zext8 s.i (s.reg x)
  · exact (s.setI_agreeOutside _).trans (State.setPc_agreeOutside _ _)

end Sys2Proof.Machine
end

section
/-! PROOFS. Decoding an encoded instruction: each encoded word by its format, then the two bytes of it (spec
30_encoding.md R50, R51, R52, R55, R57; 20_memory.md R32). -/

namespace Sys2Proof

/-! ### The families the decision tree splits further (R55) -/

theorem decodeWord_formatXYN_family8 (x y : RegIdx) (n : Nibble) :
    decodeWord (formatXYN 0x8 x y n) = decodeFamily8 x y n := by
  simp [decodeWord]

theorem decodeWord_formatXNN_familyE (x : RegIdx) (nn : Byte) :
    decodeWord (formatXNN 0xE x nn) = decodeFamilyE x nn := by
  simp [decodeWord]

theorem decodeWord_formatXNN_familyF (x : RegIdx) (nn : Byte) :
    decodeWord (formatXNN 0xF x nn) = decodeFamilyF x nn := by
  simp [decodeWord]

/-! ### Every encoded word -/

/-- The decoder gives back every instruction from its word, by the instruction's format and family. -/
theorem decodeWord_encode (i : Instr) : decodeWord (encode i) = some i := by
  cases i with
  -- family 0: the two words themselves
  | cls | ret => decide
  -- formats NNN and XNN: the family alone selects
  | jp | call | ldI | jpV0 => simp [encode, decodeWord]
  | seImm | sneImm | ldImm | addImm | rnd => simp [encode, decodeWord]
  -- format XY with `n = 0`, and Dxyn
  | seReg | sneReg | drw => simp [encode, decodeWord]
  -- families 8, E and F: the sub-opcode selects
  | ldReg | orReg | andReg | xorReg | addReg | subReg | shr | subnReg | shl =>
    exact decodeWord_formatXYN_family8 _ _ _
  | skp | sknp => exact decodeWord_formatXNN_familyE _ _
  | ldVxDt | ldVxK | ldDtVx | ldStVx | addIVx | ldFVx | ldBVx | ldMemVx | ldVxMem =>
    exact decodeWord_formatXNN_familyF _ _

/-- What a byte stream holds at its front, when the two bytes of its first word are those of an instruction. -/
theorem decode_bytes_of_decodeWord {w : Word} {i : Instr} (h : decodeWord w = some i) (rest : List Byte) :
    decode (highByte w :: lowByte w :: rest) = .ok (i, rest) := by
  simp [decode, h]

/-- Settles O2: the two bytes join to the instruction's word, and that word decodes to it. -/
theorem decodeOfEncode : Obligations.DecodeOfEncode :=
  fun i rest => decode_bytes_of_decodeWord (decodeWord_encode i) rest

end Sys2Proof
end

section
/-! PROOFS. Fx55 within memory: the bytes it leaves, and what a fetch reads of them (spec 43_index_memory.md R104;
20_memory.md R30, R32, R42; 92_eei_decisions.md D29). -/

namespace Sys2Proof.Machine

/-! ### The bytes Fx55 stores -/

theorem State.length_regsUpTo (s : State) (x : RegIdx) : (s.regsUpTo x).length = x.toNat + 1 := by
  simp [State.regsUpTo]

theorem State.getD_regsUpTo (s : State) {x k : RegIdx} (hk : k.toNat ≤ x.toNat) :
    (s.regsUpTo x).getD k.toNat 0 = s.reg k := by
  have hlt : k.toNat < x.toNat + 1 := Nat.lt_succ_of_le hk
  simp [State.regsUpTo, List.getD, hlt]

/-- The state a register store within memory leaves. -/
def State.afterStore (s : State) (x : RegIdx) : State :=
  ((s.setMem (Memory.writeBytes s.mem s.i.toNat (s.regsUpTo x))).advanceI x).advance

theorem exec_ldMemVx_of_fits {s : State} {x : RegIdx} (h : s.i.toNat + x.toNat ≤ 0xFFF) :
    exec (.ldMemVx x) s = .next (s.afterStore x) :=
  congrArg _ (s.guardFootprint_of_fits _ _ (.inr (by simp only [Config.memSize]; omega)))

/-- Byte `k` of the footprint is V[k]. -/
theorem State.read_afterStore {s : State} {x k : RegIdx} (h : s.i.toNat + x.toNat ≤ 0xFFF)
    (hk : k.toNat ≤ x.toNat) :
    Memory.read (s.afterStore x).mem (s.i.toNat + k.toNat) = s.reg k := by
  have hlen := s.length_regsUpTo x
  have hfit : s.i.toNat + (s.regsUpTo x).length ≤ Config.memSize := by simp only [Config.memSize]; omega
  calc Memory.read (s.afterStore x).mem (s.i.toNat + k.toNat)
      = (s.regsUpTo x).getD (s.i.toNat + k.toNat - s.i.toNat) 0 :=
        (Memory.read_writeBytes _ _ _ _ hfit).trans (if_pos (by omega))
    _ = s.reg k := by rw [Nat.add_sub_cancel_left, s.getD_regsUpTo hk]

/-! ### The fetch -/

theorem State.fetchWord_of_lt {s : State} (h : s.pc.toNat < 0x0FFF) :
    s.fetchWord = some (Memory.readWord s.mem s.pc.toNat) :=
  if_neg (Nat.not_le_of_lt h)

/-- Settles O55: the fetch guard passes, and the two bytes the fetch joins are those of V[k] and V[k + 1]. -/
theorem storesAreFetched : Obligations.StoresAreFetched := by
  intro x s k hfit hk
  refine ⟨s.afterStore x, exec_ldMemVx_of_fits hfit, fun p hp => ?_⟩
  have hk1 : (k + 1).toNat = k.toNat + 1 := by bv_omega
  have hhi : Memory.read (s.afterStore x).mem p.toNat = s.reg k := by
    rw [hp, State.read_afterStore hfit (Nat.le_of_lt hk)]
  have hlo : Memory.read (s.afterStore x).mem (p.toNat + 1) = s.reg (k + 1) := by
    rw [hp, Nat.add_assoc, ← hk1, State.read_afterStore hfit (hk1 ▸ hk)]
  calc ((s.afterStore x).setPc p).fetchWord
      = some (Memory.readWord (s.afterStore x).mem p.toNat) :=
        State.fetchWord_of_lt (show p.toNat < 0x0FFF by omega)
    _ = some (s.reg k ++ s.reg (k + 1)) := by rw [Memory.readWord, hhi, hlo, joinBytes]

end Sys2Proof.Machine
end

section
/-! PROOFS. The decision tree, the encoder and the opcode map say the same: one lemma per format for the words with a
row's fixed bits, then the map row by row (spec 30_encoding.md R51, R52, R55, R57; 92_eei_decisions.md D14). -/

namespace Sys2Proof

/-! ### Decoding is the inverse of encoding -/

/-- Settles O3: by the branches of the decision tree, each of which fixes what the encoder sets. -/
theorem encodeOfDecode : Obligations.EncodeOfDecode :=
  fun _ _ => encode_of_decodeWord

/-- A word decodes to the instruction it encodes, and to no other. -/
theorem decodeWord_eq_some_iff {w : Word} {i : Instr} : decodeWord w = some i ↔ encode i = w :=
  ⟨encode_of_decodeWord, fun h => h ▸ decodeWord_encode i⟩

/-! ### Sample words -/

/-- A table word, laid out in memory and read back, is decoded as the word it is. -/
theorem decodeTableWord_eq (nbits w : Nat) : decodeTableWord nbits w = decodeWord (tableWord nbits w) := by
  cases h : decodeWord (tableWord nbits w) <;> simp [decodeTableWord, decode, h]

/-- Settles O1: the nine legal words are the encodings of their instructions, and the tree rejects the other two. -/
theorem sampleWordsDecode : Obligations.SampleWordsDecode := by
  simp only [Obligations.SampleWordsDecode, decodeTableWord_eq, decodeWord_eq_some_iff]
  decide

/-! ### The words of each format -/

theorem and_F00F (w : Word) : w &&& 0xF00F = formatXYN (fieldFam w) 0 0 (fieldN w) := by
  have h := fits_formatXY "" _ (fieldFam w) (fieldX w) (fieldY w) (fieldN w) rfl
  rw [formatXYN_fields] at h
  exact beq_iff_eq.1 h

/-- A word with the fixed bits of a row that fixes the family and `n` has both. -/
theorem fields_of_and_F00F {w p : Word} (h : w &&& 0xF00F = p) :
    fieldFam w = fieldFam p ∧ fieldN w = fieldN p := by
  rw [← h, and_F00F, fieldFam_formatXYN, fieldN_formatXYN]
  exact ⟨rfl, rfl⟩

namespace Machine

/-- `encodedAs` through the encoder alone: the fixed bits make a word the encoding of its fields, and the encoder
sets them. -/
theorem encodedAs_of_encode {mask p : Word} {instr : Word → Instr}
    (hdec : ∀ w, w &&& mask = p → encode (instr w) = w)
    (hfits : ∀ w, OpRow.fits ⟨"", mask, p⟩ (encode (instr w)) = true) : encodedAs mask p instr :=
  encodedAs_of (fun w hw => decodeWord_eq_some_iff.2 (hdec w hw)) fun w => beq_iff_eq.1 (hfits w)

/-- An instruction without operands: its one word. -/
theorem encodedAs_word (i : Instr) : encodedAs 0xFFFF (encode i) (fun _ => i) :=
  encodedAs_of_encode (fun _ hw => hw.symm.trans BitVec.and_allOnes) fun _ => beq_iff_eq.2 BitVec.and_allOnes

/-- Format NNN, the family fixed. -/
theorem encodedAs_formatNNN {p : Word} {mk : Addr12 → Instr} (f : Nibble) (hp : p = formatNNN f 0)
    (hmk : ∀ nnn, encode (mk nnn) = formatNNN f nnn) :
    encodedAs 0xF000 p (fun w => mk (fieldNNN w)) := by
  refine encodedAs_of_encode (fun w hw => ?_) fun w => hmk _ ▸ fits_formatNNN _ _ f _ hp
  have hf : fieldFam w = f := by rw [fieldFam_of_and_F000 hw, hp, fieldFam_formatNNN]
  rw [hmk, ← hf, formatNNN_fields]

/-- Format XNN, the family fixed. -/
theorem encodedAs_formatXNN {p : Word} {mk : RegIdx → Byte → Instr} (f : Nibble) (hp : p = formatXNN f 0 0)
    (hmk : ∀ x nn, encode (mk x nn) = formatXNN f x nn) :
    encodedAs 0xF000 p (fun w => mk (fieldX w) (fieldNN w)) := by
  refine encodedAs_of_encode (fun w hw => ?_) fun w => hmk _ _ ▸ fits_formatXNN _ _ f _ _ hp
  have hf : fieldFam w = f := by rw [fieldFam_of_and_F000 hw, hp, fieldFam_formatXNN]
  rw [hmk, ← hf, formatXNN_fields]

/-- Format X, the family and `nn` fixed. -/
theorem encodedAs_formatX {p : Word} {mk : RegIdx → Instr} (f : Nibble) (nn : Byte) (hp : p = formatXNN f 0 nn)
    (hmk : ∀ x, encode (mk x) = formatXNN f x nn) :
    encodedAs 0xF0FF p (fun w => mk (fieldX w)) := by
  refine encodedAs_of_encode (fun w hw => ?_) fun w => hmk _ ▸ fits_formatX _ _ f _ nn hp
  obtain ⟨hf, hnn⟩ := fields_of_and_F0FF hw
  rw [hp, fieldFam_formatXNN] at hf
  rw [hp, fieldNN_formatXNN] at hnn
  rw [hmk, ← hf, ← hnn, formatXNN_fields]

/-- Format XY, the family and `n` fixed. -/
theorem encodedAs_formatXY {p : Word} {mk : RegIdx → RegIdx → Instr} (f n : Nibble) (hp : p = formatXYN f 0 0 n)
    (hmk : ∀ x y, encode (mk x y) = formatXYN f x y n) :
    encodedAs 0xF00F p (fun w => mk (fieldX w) (fieldY w)) := by
  refine encodedAs_of_encode (fun w hw => ?_) fun w => hmk _ _ ▸ fits_formatXY _ _ f _ _ n hp
  obtain ⟨hf, hn⟩ := fields_of_and_F00F hw
  rw [hp, fieldFam_formatXYN] at hf
  rw [hp, fieldN_formatXYN] at hn
  rw [hmk, ← hf, ← hn, formatXYN_fields]

end Machine

/-! ### The map, row by row -/

/-- A row of the map gives the words of an instruction of its mnemonic, the operands read from the word. -/
def OpRow.Encodes (r : OpRow) : Prop :=
  ∃ instr, Machine.encodedAs r.mask r.pattern instr ∧ ∀ w, (instr w).mnemonic = r.mnemonic

section
open Machine

theorem opcodeMapLow_encodes : ∀ r ∈ opcodeMapLow, r.Encodes := by
  simp only [opcodeMapLow, List.forall_mem_cons]
  exact ⟨⟨_, encodedAs_word .cls, fun _ => rfl⟩,
    ⟨_, encodedAs_word .ret, fun _ => rfl⟩,
    ⟨_, encodedAs_formatNNN (mk := .jp) 0x1 rfl fun _ => rfl, fun _ => rfl⟩,
    ⟨_, encodedAs_formatNNN (mk := .call) 0x2 rfl fun _ => rfl, fun _ => rfl⟩,
    ⟨_, encodedAs_formatXNN (mk := .seImm) 0x3 rfl fun _ _ => rfl, fun _ => rfl⟩,
    ⟨_, encodedAs_formatXNN (mk := .sneImm) 0x4 rfl fun _ _ => rfl, fun _ => rfl⟩,
    ⟨_, encodedAs_formatXY (mk := .seReg) 0x5 0x0 rfl fun _ _ => rfl, fun _ => rfl⟩,
    ⟨_, encodedAs_formatXNN (mk := .ldImm) 0x6 rfl fun _ _ => rfl, fun _ => rfl⟩,
    ⟨_, encodedAs_formatXNN (mk := .addImm) 0x7 rfl fun _ _ => rfl, fun _ => rfl⟩,
    ⟨_, encodedAs_formatXY (mk := .ldReg) 0x8 0x0 rfl fun _ _ => rfl, fun _ => rfl⟩,
    List.forall_mem_nil _⟩

theorem opcodeMapFamily8_encodes : ∀ r ∈ opcodeMapFamily8, r.Encodes := by
  simp only [opcodeMapFamily8, List.forall_mem_cons]
  exact ⟨⟨_, encodedAs_formatXY (mk := .orReg) 0x8 0x1 rfl fun _ _ => rfl, fun _ => rfl⟩,
    ⟨_, encodedAs_formatXY (mk := .andReg) 0x8 0x2 rfl fun _ _ => rfl, fun _ => rfl⟩,
    ⟨_, encodedAs_formatXY (mk := .xorReg) 0x8 0x3 rfl fun _ _ => rfl, fun _ => rfl⟩,
    ⟨_, encodedAs_formatXY (mk := .addReg) 0x8 0x4 rfl fun _ _ => rfl, fun _ => rfl⟩,
    ⟨_, encodedAs_formatXY (mk := .subReg) 0x8 0x5 rfl fun _ _ => rfl, fun _ => rfl⟩,
    ⟨_, encodedAs_formatXY (mk := .shr) 0x8 0x6 rfl fun _ _ => rfl, fun _ => rfl⟩,
    ⟨_, encodedAs_formatXY (mk := .subnReg) 0x8 0x7 rfl fun _ _ => rfl, fun _ => rfl⟩,
    ⟨_, encodedAs_formatXY (mk := .shl) 0x8 0xE rfl fun _ _ => rfl, fun _ => rfl⟩,
    ⟨_, encodedAs_formatXY (mk := .sneReg) 0x9 0x0 rfl fun _ _ => rfl, fun _ => rfl⟩,
    List.forall_mem_nil _⟩

theorem opcodeMapHigh_encodes : ∀ r ∈ opcodeMapHigh, r.Encodes := by
  simp only [opcodeMapHigh, List.forall_mem_cons]
  exact ⟨⟨_, encodedAs_formatNNN (mk := .ldI) 0xA rfl fun _ => rfl, fun _ => rfl⟩,
    ⟨_, encodedAs_formatNNN (mk := .jpV0) 0xB rfl fun _ => rfl, fun _ => rfl⟩,
    ⟨_, encodedAs_formatXNN (mk := .rnd) 0xC rfl fun _ _ => rfl, fun _ => rfl⟩,
    ⟨_, encodedAs_drw, fun _ => rfl⟩,
    ⟨_, encodedAs_formatX (mk := .skp) 0xE 0x9E rfl fun _ => rfl, fun _ => rfl⟩,
    ⟨_, encodedAs_formatX (mk := .sknp) 0xE 0xA1 rfl fun _ => rfl, fun _ => rfl⟩,
    ⟨_, encodedAs_formatX (mk := .ldVxDt) 0xF 0x07 rfl fun _ => rfl, fun _ => rfl⟩,
    ⟨_, encodedAs_formatX (mk := .ldVxK) 0xF 0x0A rfl fun _ => rfl, fun _ => rfl⟩,
    ⟨_, encodedAs_formatX (mk := .ldDtVx) 0xF 0x15 rfl fun _ => rfl, fun _ => rfl⟩,
    ⟨_, encodedAs_formatX (mk := .ldStVx) 0xF 0x18 rfl fun _ => rfl, fun _ => rfl⟩,
    ⟨_, encodedAs_addIVx, fun _ => rfl⟩,
    ⟨_, encodedAs_formatX (mk := .ldFVx) 0xF 0x29 rfl fun _ => rfl, fun _ => rfl⟩,
    ⟨_, encodedAs_formatX (mk := .ldBVx) 0xF 0x33 rfl fun _ => rfl, fun _ => rfl⟩,
    ⟨_, encodedAs_formatX (mk := .ldMemVx) 0xF 0x55 rfl fun _ => rfl, fun _ => rfl⟩,
    ⟨_, encodedAs_formatX (mk := .ldVxMem) 0xF 0x65 rfl fun _ => rfl, fun _ => rfl⟩,
    List.forall_mem_nil _⟩

end

theorem opcodeMap_encodes : ∀ r ∈ opcodeMap, r.Encodes :=
  List.forall_mem_append.2
    ⟨List.forall_mem_append.2 ⟨opcodeMapLow_encodes, opcodeMapFamily8_encodes⟩, opcodeMapHigh_encodes⟩

/-- No two rows of the map bear one mnemonic. -/
theorem opcodeMap_mnemonic_nodup : (opcodeMap.map OpRow.mnemonic).Nodup := by decide

theorem opcodeMap_eq_of_mnemonic {r q : OpRow} (hr : r ∈ opcodeMap) (hq : q ∈ opcodeMap)
    (h : r.mnemonic = q.mnemonic) : r = q :=
  List.inj_on_of_nodup_map opcodeMap_mnemonic_nodup hr hq h

/-- The word of every instruction fits the row of the map that bears its mnemonic. -/
theorem encode_fits_row : ∀ i : Instr, Laws.EncodesLegal.Statement i
  | .cls => Laws.EncodesLegal.cls
  | .ret => Laws.EncodesLegal.ret
  | .jp nnn => Laws.EncodesLegal.jp nnn
  | .call nnn => Laws.EncodesLegal.call nnn
  | .seImm x nn => Laws.EncodesLegal.seImm x nn
  | .sneImm x nn => Laws.EncodesLegal.sneImm x nn
  | .seReg x y => Laws.EncodesLegal.seReg x y
  | .ldImm x nn => Laws.EncodesLegal.ldImm x nn
  | .addImm x nn => Laws.EncodesLegal.addImm x nn
  | .ldReg x y => Laws.EncodesLegal.ldReg x y
  | .orReg x y => Laws.EncodesLegal.orReg x y
  | .andReg x y => Laws.EncodesLegal.andReg x y
  | .xorReg x y => Laws.EncodesLegal.xorReg x y
  | .addReg x y => Laws.EncodesLegal.addReg x y
  | .subReg x y => Laws.EncodesLegal.subReg x y
  | .shr x y => Laws.EncodesLegal.shr x y
  | .subnReg x y => Laws.EncodesLegal.subnReg x y
  | .shl x y => Laws.EncodesLegal.shl x y
  | .sneReg x y => Laws.EncodesLegal.sneReg x y
  | .ldI nnn => Laws.EncodesLegal.ldI nnn
  | .jpV0 nnn => Laws.EncodesLegal.jpV0 nnn
  | .rnd x nn => Laws.EncodesLegal.rnd x nn
  | .drw x y n => Laws.EncodesLegal.drw x y n
  | .skp x => Laws.EncodesLegal.skp x
  | .sknp x => Laws.EncodesLegal.sknp x
  | .ldVxDt x => Laws.EncodesLegal.ldVxDt x
  | .ldVxK x => Laws.EncodesLegal.ldVxK x
  | .ldDtVx x => Laws.EncodesLegal.ldDtVx x
  | .ldStVx x => Laws.EncodesLegal.ldStVx x
  | .addIVx x => Laws.EncodesLegal.addIVx x
  | .ldFVx x => Laws.EncodesLegal.ldFVx x
  | .ldBVx x => Laws.EncodesLegal.ldBVx x
  | .ldMemVx x => Laws.EncodesLegal.ldMemVx x
  | .ldVxMem x => Laws.EncodesLegal.ldVxMem x

/-- Settles O4: a word that fits a row decodes by what the row encodes; the other way, the decoded instruction's word
fits the row of its mnemonic, and there is one such row. -/
theorem decodeIsTheOpcodeMap : Obligations.DecodeIsTheOpcodeMap := by
  intro w r hr
  constructor
  · intro hfit
    obtain ⟨instr, henc, hname⟩ := opcodeMap_encodes r hr
    exact ⟨instr w, (henc w).1 (beq_iff_eq.1 hfit), hname w⟩
  · rintro ⟨i, hdec, hname⟩
    obtain ⟨q, hq, hqname, hqfit⟩ := encode_fits_row i
    rw [encode_of_decodeWord hdec] at hqfit
    rwa [opcodeMap_eq_of_mnemonic hr hq (hname.symm.trans hqname.symm)]

end Sys2Proof
end

section
/-! PROOFS. One Step: an equation for each way its cycle can go, and what parks the core (spec 30_encoding.md R54;
41_control_flow.md R62, R76; 92_eei_decisions.md D9, D11, D13). -/

namespace Sys2Proof.Machine

/-! ### Sampling the inputs -/

/-- To begin a Step changes the model's own parts of the state alone. -/
theorem State.begun_sameCore (s : State) (keys : BitVec 16) (rnd : Byte) : sameCore s (s.begun keys rnd) := by
  intro p hp
  cases p <;> simp_all [Part.same, State.begun, modelParts]

section
variable {s : State} {keys : BitVec 16} {rnd : Byte} (h : s.nextTransaction = .step keys rnd)
include h

/-! ### The ways a Step can go -/

theorem step_of_faulted (hrun : s.run = .faulted) : step s = .next (s.begun keys rnd) := by
  simp [step_of_nextTransaction_step h, State.begun, State.cycle, hrun]

theorem step_of_fetch_fault (hrun : s.run = .running) (hpc : 0x0FFF ≤ s.pc.toNat) :
    step s = .next ((s.begun keys rnd).raise .pcOutOfBounds s.pc) := by
  simp [step_of_nextTransaction_step h, State.begun, State.cycle, State.fetchWord, hrun, hpc]

variable (hrun : s.run = .running) (hpc : s.pc.toNat < 0x0FFF)
include hrun hpc

theorem step_of_illegal (hdec : decodeWord (Memory.readWord s.mem s.pc.toNat) = none) :
    step s = .next ((s.begun keys rnd).raise .unimplementedOpcode (Memory.readWord s.mem s.pc.toNat)) := by
  simp [step_of_nextTransaction_step h, State.begun, State.cycle, State.fetchWord_of_lt, hrun, hpc, hdec]

theorem step_of_decodes {i : Instr} (hdec : decodeWord (Memory.readWord s.mem s.pc.toNat) = some i) :
    step s = exec i (s.begun keys rnd) := by
  simp [step_of_nextTransaction_step h, State.begun, State.cycle, State.fetchWord_of_lt, hrun, hpc, hdec]

end

/-- Settles O7: one clause for each way a Step can go; the fetched word is its two bytes joined. -/
theorem stepRunsTheDecodedInstruction : Obligations.StepRunsTheDecodedInstruction := by
  intro s keys rnd h
  refine ⟨⟨rfl, rfl, s.begun_sameCore keys rnd⟩, step_of_faulted h, fun hrun hpc => ?_, ?_⟩
  · rw [step_of_fetch_fault h hrun hpc]
    exact State.raise_faultsWith _ _ _
  · rintro hrun hpc op rfl
    refine ⟨fun hdec => ?_, fun i => step_of_decodes h hrun hpc⟩
    rw [step_of_illegal h hrun hpc hdec]
    exact State.raise_faultsWith _ _ _

/-! ### A jump to itself -/

/-- A jump to an address whose number is pc's writes the pc it finds. -/
theorem exec_jp_self {s : State} {nnn : Addr12} (h : s.pc.toNat = nnn.toNat) : exec (.jp nnn) s = .next s := by
  have hpc : zext12 nnn = s.pc := BitVec.eq_of_toNat_eq ((BitVec.toNat_setWidth_of_le (by decide)).trans h.symm)
  calc exec (.jp nnn) s = .next (s.setPc (zext12 nnn)) := rfl
    _ = .next s := by rw [hpc]; rfl

/-- Settles O39: the Step runs the jump, and the jump leaves the begun state, whose core is that of `s`. -/
theorem jumpToItselfParks : Obligations.JumpToItselfParks := by
  intro s keys rnd nnn h hrun htarget hpc hword
  refine ⟨s.begun keys rnd, ?_, s.begun_sameCore keys rnd⟩
  calc step s
      = exec (.jp nnn) (s.begun keys rnd) := step_of_decodes h hrun hpc (decodeWord_eq_some_iff.2 hword.symm)
    _ = .next (s.begun keys rnd) := exec_jp_self (by simpa [State.begun] using htarget)

end Sys2Proof.Machine
end

section
/-! PROOFS. 00E0, and Dxyn drawn twice at one place (spec 40_display.md R70, R71, R72; log entry 13). -/

namespace Sys2Proof.Machine

/-- Settles O27: its one word, the cells of the clear frame, and the frames of its two writes. -/
theorem clearScreen : Obligations.ClearScreen := by
  refine ⟨encodedAs_word .cls, fun s => ⟨(s.setFb Frame.clear).advance, rfl, fun r c _ _ => ?_, rfl, ?_⟩⟩
  · exact Frame.get_clear r c
  · exact (s.setFb_agreeOutside _).trans (State.setPc_agreeOutside _ _)

/-! ### What a draw leaves for the next one -/

theorem State.afterDraw_cell (s : State) (x y : RegIdx) (n : Nibble) (r c : Nat) :
    (s.afterDraw x y n).cell r c =
      (s.cell r c ^^ spriteCovers (s.reg x).toNat (s.reg y).toNat (s.sprite n) r c) :=
  (blit_spec _ _ _ _).1 r c

theorem State.afterDraw_regF (s : State) (x y : RegIdx) (n : Nibble) :
    (s.afterDraw x y n).reg regF = flagByte (s.drawn x y n).2 :=
  State.setReg_reg_self _ _ _

theorem State.afterDraw_reg_of_ne (s : State) (x y : RegIdx) (n : Nibble) {k : RegIdx} (hk : k ≠ regF) :
    (s.afterDraw x y n).reg k = s.reg k :=
  (State.setReg_reg _ regF k _).trans (if_neg hk)

theorem State.afterDraw_sprite (s : State) (x y : RegIdx) (n : Nibble) :
    (s.afterDraw x y n).sprite n = s.sprite n := rfl

/-! ### The second draw: neither coordinate register is VF, so it covers the cells the first covered -/

section
variable (s : State) {x y : RegIdx} (n : Nibble) (hx : x ≠ regF) (hy : y ≠ regF)
include hx hy

theorem spriteHits_afterDraw (r c : Nat) : spriteHits (s.afterDraw x y n) x y n r c ↔ spriteHits s x y n r c := by
  rw [spriteHits, State.afterDraw_reg_of_ne s x y n hx, State.afterDraw_reg_of_ne s x y n hy]
  rfl

/-- Each covered cell is inverted twice. -/
theorem State.afterDraw_twice_cell (r c : Nat) :
    ((s.afterDraw x y n).afterDraw x y n).cell r c = s.cell r c := by
  rw [State.afterDraw_cell, State.afterDraw_reg_of_ne s x y n hx, State.afterDraw_reg_of_ne s x y n hy,
    State.afterDraw_sprite, State.afterDraw_cell, Bool.xor_assoc, Bool.xor_self, Bool.xor_false]

/-- The first draw has inverted each cell a 1 lands on, so the second collides where the cell was off. -/
theorem State.afterDraw_drawn_collided_iff :
    ((s.afterDraw x y n).drawn x y n).2 = true ↔
      ∃ r c, r < 32 ∧ c < 64 ∧ spriteHits s x y n r c ∧ s.cell r c = false := by
  rw [State.drawn_collided_iff]
  refine exists_congr fun r => exists_congr fun c => and_congr_right fun hr => and_congr_right fun hc => ?_
  rw [spriteHits_afterDraw s n hx hy]
  refine and_congr_right fun hhit => ?_
  have hinv : (s.afterDraw x y n).cell r c = !s.cell r c := State.drawn_get_of_hits hr hc hhit
  rw [hinv, Bool.not_eq_true']

end

/-- Settles O29: the first draw keeps `I`, so both lie in memory; the cells are inverted twice, and the second
draw's flag is whether a 1 lands on a cell that was off. -/
theorem drawingTwiceRestores : Obligations.DrawingTwiceRestores := by
  intro x y n s hx hy hfit
  have hcoll := s.afterDraw_drawn_collided_iff n hx hy
  have hflag := (s.afterDraw x y n).afterDraw_regF x y n
  refine ⟨s.afterDraw x y n, (s.afterDraw x y n).afterDraw x y n, exec_drw_of_fits hfit, exec_drw_of_fits hfit,
    s.afterDraw_twice_cell n hx hy, fun hoff => ?_, fun hno => ?_⟩
  · exact hflag.trans (congrArg flagByte (hcoll.2 hoff))
  · exact hflag.trans (congrArg flagByte (Bool.eq_false_iff.2 (mt hcoll.1 hno)))

end Sys2Proof.Machine
end

section
/-! PROOFS. Control transfer: the skips, the jumps, and 2nnn and 00EE over the return stack (spec 41_control_flow.md
R75 to R82; 92_eei_decisions.md D5, D6, D12). -/

namespace Sys2Proof.Machine

/-! ### Skips (R78 to R81) -/

/-- A skip on the Boolean `c`, where `p` says that it is true and `q` that it is false. -/
theorem exec_of_skipIf {i : Instr} {s : State} {c : Bool} {p q : Prop} (hexec : exec i s = .next (s.skipIf c))
    (hp : c = true ↔ p) (hq : c = false ↔ q) :
    ∃ t, exec i s = .next t ∧ (p → t.pc = s.pc + 4) ∧ (q → t.pc = s.pc + 2) ∧ agreeOutside [.pc] s t := by
  refine ⟨_, hexec, fun h => ?_, fun h => ?_, s.setPc_agreeOutside _⟩
  · simp [hp.2 h]
  · simp [hq.2 h]

/-- Settles O36: both are the skip on the comparison with the immediate, one with it negated. -/
theorem skipOnImmediate : Obligations.SkipOnImmediate := by
  refine ⟨encodedAs_formatXNN (mk := .seImm) 0x3 rfl fun _ _ => rfl,
    encodedAs_formatXNN (mk := .sneImm) 0x4 rfl fun _ _ => rfl, fun x nn s => ⟨?_, ?_⟩⟩
  · exact exec_of_skipIf rfl beq_iff_eq beq_eq_false_iff_ne
  · exact exec_of_skipIf rfl bne_iff_ne bne_eq_false_iff_eq

/-- Settles O37: both are the skip on the comparison of the two registers, one with it negated. -/
theorem skipOnRegisters : Obligations.SkipOnRegisters := by
  refine ⟨encodedAs_formatXY (mk := .seReg) 0x5 0x0 rfl fun _ _ => rfl,
    encodedAs_formatXY (mk := .sneReg) 0x9 0x0 rfl fun _ _ => rfl, fun x y s => ⟨?_, ?_⟩⟩
  · exact exec_of_skipIf rfl beq_iff_eq beq_eq_false_iff_ne
  · exact exec_of_skipIf rfl bne_iff_ne bne_eq_false_iff_eq

/-! ### Jumps (R76, R82) -/

theorem toNat_zext12 (nnn : Addr12) : (zext12 nnn).toNat = nnn.toNat :=
  BitVec.toNat_setWidth_of_le (by decide)

/-- A 12-bit address and a byte add up in 16 bits without wrap. -/
theorem toNat_zext12_add_zext8 (nnn : Addr12) (b : Byte) :
    (zext12 nnn + zext8 b).toNat = nnn.toNat + b.toNat := by
  rw [toNat_add_zext8, toNat_zext12]
  omega

/-- Settles O33: the target is the immediate, zero-extended. -/
theorem jumpToAddress : Obligations.JumpToAddress := by
  refine ⟨encodedAs_formatNNN (mk := .jp) 0x1 rfl fun _ => rfl,
    fun nnn s => ⟨s.setPc (zext12 nnn), rfl, ?_, s.setPc_agreeOutside _⟩⟩
  exact toNat_zext12 nnn

/-- Settles O38: the target is the exact sum, which 16 bits hold. -/
theorem jumpWithOffset : Obligations.JumpWithOffset := by
  refine ⟨encodedAs_formatNNN (mk := .jpV0) 0xB rfl fun _ => rfl,
    fun nnn s => ⟨s.setPc (zext12 nnn + zext8 (s.reg 0)), rfl, ?_, s.setPc_agreeOutside _⟩⟩
  exact toNat_zext12_add_zext8 nnn (s.reg 0)

/-! ### The return stack (R14, R15) -/

theorem State.push_agreeOutside (s : State) (w : Word) : agreeOutside [.stack, .sp] s (s.push w) := by
  intro p hp
  cases p <;> simp_all [Part.same]

theorem State.pop_agreeOutside (s : State) : agreeOutside [.sp] s s.pop := by
  intro p hp
  cases p <;> simp_all [Part.same]

theorem State.push_stackAt_self (s : State) (w : Word) : (s.push w).stackAt s.sp = w :=
  (s.push_stackAt w s.sp).trans (if_pos rfl)

theorem State.push_stackAt_of_ne (s : State) (w : Word) {k : BitVec 4} (hk : k ≠ s.sp) :
    (s.push w).stackAt k = s.stackAt k :=
  (s.push_stackAt w k).trans (if_neg hk)

/-! ### Calls and returns (R75, R77) -/

/-- The state a call leaves that finds an entry free. -/
def State.afterCall (s : State) (nnn : Addr12) : State := (s.push s.pc).setPc (zext12 nnn)

/-- The state a return leaves that finds an entry to pop. -/
def State.afterRet (s : State) : State := s.pop.setPc (s.stackAt (s.sp - 1) + 2)

theorem State.afterCall_sp (s : State) (nnn : Addr12) : (s.afterCall nnn).sp = s.sp + 1 := rfl

theorem State.afterRet_sp (s : State) : s.afterRet.sp = s.sp - 1 := rfl

theorem exec_call_of_ne {s : State} (nnn : Addr12) (h : s.sp ≠ 15) :
    exec (.call nnn) s = .next (s.afterCall nnn) :=
  congrArg _ (if_neg fun hsp => h (BitVec.eq_of_toNat_eq hsp))

theorem exec_call_of_eq {s : State} (nnn : Addr12) (h : s.sp = 15) :
    exec (.call nnn) s = .next (s.raise .stackOverflow s.pc) :=
  congrArg _ (if_pos (congrArg BitVec.toNat h))

theorem exec_ret_of_ne {s : State} (h : s.sp ≠ 0) : exec .ret s = .next s.afterRet :=
  congrArg _ (if_neg h)

theorem exec_ret_of_eq {s : State} (h : s.sp = 0) : exec .ret s = .next (s.raise .stackUnderflow s.pc) :=
  congrArg _ (if_pos h)

theorem State.afterCall_agreeOutside (s : State) (nnn : Addr12) :
    agreeOutside [.stack, .sp, .pc] s (s.afterCall nnn) :=
  (s.push_agreeOutside _).trans (State.setPc_agreeOutside _ _)

theorem State.afterRet_agreeOutside (s : State) : agreeOutside [.sp, .pc] s s.afterRet :=
  s.pop_agreeOutside.trans (State.setPc_agreeOutside _ _)

/-- Settles O34: the entry at sp is the call site and no other entry is written; a full stack is the fault. -/
theorem callSubroutine : Obligations.CallSubroutine := by
  refine ⟨encodedAs_formatNNN (mk := .call) 0x2 rfl fun _ => rfl, fun nnn s => ⟨fun hsp => ?_, fun hsp => ?_⟩⟩
  · refine ⟨s.afterCall nnn, exec_call_of_ne nnn hsp, s.push_stackAt_self s.pc,
      fun k hk => s.push_stackAt_of_ne s.pc hk, ?_, toNat_zext12 nnn, s.afterCall_agreeOutside nnn⟩
    rw [State.afterCall_sp]
    bv_omega
  · rw [exec_call_of_eq nnn hsp]
    exact s.raise_faultsWith _ _

/-- Settles O32: pc is two past the popped entry, and the stack is kept; an empty stack is the fault. -/
theorem returnFromSubroutine : Obligations.ReturnFromSubroutine := by
  refine ⟨encodedAs_word .ret, fun s => ⟨fun hsp => ?_, fun hsp => ?_⟩⟩
  · refine ⟨s.afterRet, exec_ret_of_ne hsp, ?_, rfl, s.afterRet_agreeOutside⟩
    rw [State.afterRet_sp]
    bv_omega
  · rw [exec_ret_of_eq hsp]
    exact s.raise_faultsWith _ _

/-! ### A call and its return -/

/-- A part that is the same in both states needs no place in the list of a frame. -/
theorem agreeOutside.of_cons {q : Part} {ps : List Part} {s t : State} (h : agreeOutside (q :: ps) s t)
    (hq : q.same s t) : agreeOutside ps s t := by
  intro p hp
  by_cases hpq : p = q
  · exact hpq ▸ hq
  · exact h p (List.not_mem_cons_of_ne_of_not_mem hpq hp)

theorem State.afterCall_sp_sub_one (s : State) (nnn : Addr12) : (s.afterCall nnn).sp - 1 = s.sp :=
  BitVec.add_sub_cancel s.sp 1

/-- The return pops the call site that the call pushed. -/
theorem State.afterCall_afterRet_pc (s : State) (nnn : Addr12) : (s.afterCall nnn).afterRet.pc = s.pc + 2 := by
  have hsite : (s.afterCall nnn).stackAt ((s.afterCall nnn).sp - 1) = s.pc := by
    rw [State.afterCall_sp_sub_one]
    exact s.push_stackAt_self s.pc
  exact congrArg (· + 2) hsite

theorem State.afterCall_afterRet_agreeOutside (s : State) (nnn : Addr12) :
    agreeOutside [.stack, .pc] s (s.afterCall nnn).afterRet := by
  have hboth := (s.afterCall_agreeOutside nnn).trans (s.afterCall nnn).afterRet_agreeOutside
  have hsp : Part.sp.same s (s.afterCall nnn).afterRet := s.afterCall_sp_sub_one nnn
  exact (agreeOutside_mono hboth (by decide)).of_cons hsp

/-- Settles O35: the call leaves an entry to pop, the one it wrote, and the return takes back what it counted. -/
theorem callThenReturn : Obligations.CallThenReturn := by
  intro nnn s hsp
  have hlive : (s.afterCall nnn).sp ≠ 0 := by
    rw [State.afterCall_sp]
    bv_omega
  exact ⟨s.afterCall nnn, (s.afterCall nnn).afterRet, exec_call_of_ne nnn hsp, exec_ret_of_ne hlive,
    s.afterCall_afterRet_pc nnn, s.afterCall_sp_sub_one nnn, fun k hk => s.push_stackAt_of_ne s.pc hk,
    s.afterCall_afterRet_agreeOutside nnn⟩

end Sys2Proof.Machine
end

section
/-! PROOFS. Instructions that write one register and nothing else: 6xnn, 7xnn, 8xy0 and Cxnn (spec 42_register_alu.md
R86, R87, R88, R97; 92_eei_decisions.md D22). -/

namespace Sys2Proof.Machine

/-- An instruction that writes `w` to V[x] and goes on, where `p` is what is said of `w`. -/
theorem exec_of_setReg {i : Instr} {s : State} {x : RegIdx} {w : Byte} (p : Byte → Prop)
    (hexec : exec i s = .next (s.setReg x w).advance) (hw : p w) :
    ∃ t, exec i s = .next t ∧ p (t.reg x) ∧ t.pc = s.pc + 2 ∧ (∀ k, k ≠ x → t.reg k = s.reg k) ∧
      agreeOutside [.regs, .pc] s t := by
  refine ⟨_, hexec, ?_, rfl, fun k hk => (s.setReg_reg x k w).trans (if_neg hk),
    (s.setReg_agreeOutside x w).trans (State.setPc_agreeOutside _ _)⟩
  simpa using hw

/-- Settles O40: the byte written is the immediate. -/
theorem loadImmediate : Obligations.LoadImmediate :=
  ⟨encodedAs_formatXNN (mk := .ldImm) 0x6 rfl fun _ _ => rfl,
    fun _ nn _ => exec_of_setReg (· = nn) rfl rfl⟩

/-- Settles O41: the byte written is the low byte of the sum, and the carry goes nowhere. -/
theorem addImmediate : Obligations.AddImmediate :=
  ⟨encodedAs_formatXNN (mk := .addImm) 0x7 rfl fun _ _ => rfl,
    fun x nn s => exec_of_setReg (BitVec.toNat · = ((s.reg x).toNat + nn.toNat) % 256) rfl (aluAdd_result _ _)⟩

/-- Settles O42: the byte written is what V[y] holds. -/
theorem copyRegister : Obligations.CopyRegister :=
  ⟨encodedAs_formatXY (mk := .ldReg) 0x8 0x0 rfl fun _ _ => rfl,
    fun _ y s => exec_of_setReg (· = s.reg y) rfl rfl⟩

/-- Settles O48: the byte written is the AND of the sampled byte and the immediate. -/
theorem randomMasked : Obligations.RandomMasked :=
  ⟨encodedAs_formatXNN (mk := .rnd) 0xC rfl fun _ _ => rfl,
    fun _ nn s => exec_of_setReg (fun w => ∀ b, w.getLsbD b = (s.rnd.getLsbD b && nn.getLsbD b)) rfl
      fun _ => BitVec.getLsbD_and⟩

end Sys2Proof.Machine
end

section
/-! PROOFS. Annn, and the transfers between memory and the registers: Fx33, Fx55 and Fx65 (spec 43_index_memory.md
R100, R103, R104, R105; 20_memory.md R34, R37; 92_eei_decisions.md D7, D10, D32). -/

namespace Sys2Proof.Machine

/-- Settles O49: `I` is the immediate, zero-extended. -/
theorem loadIndex : Obligations.LoadIndex := by
  refine ⟨encodedAs_formatNNN (mk := .ldI) 0xA rfl fun _ => rfl,
    fun nnn s => ⟨_, rfl, toNat_zext12 nnn, rfl, ?_⟩⟩
  exact (s.setI_agreeOutside _).trans (State.setPc_agreeOutside _ _)

/-! ### A footprint by its last byte (R37, R125) -/

theorem State.guardFootprint_of_last_le (s : State) {last : Nat} (body : State) (h : s.i.toNat + last ≤ 0xFFF) :
    s.guardFootprint (last + 1) body = body :=
  s.guardFootprint_of_fits _ _ (.inr (by simp only [Config.memSize]; omega))

theorem State.guardFootprint_faultsWith (s : State) {last : Nat} (body : State) (h : 0xFFF < s.i.toNat + last) :
    faultsWith s (.next (s.guardFootprint (last + 1) body)) .memOutOfBounds (firstBeyond s.i) := by
  rw [s.guardFootprint_of_leaves body last.succ_pos (by simp only [Config.memSize]; omega)]
  exact s.raise_faultsWith _ _

/-! ### The bytes a group of writes leaves (R34, R36) -/

theorem Memory.read_writeBytes_add {m : Memory} {a k : Nat} {ws : List Byte}
    (hfit : a + ws.length ≤ Config.memSize) (hk : k < ws.length) :
    Memory.read (Memory.writeBytes m a ws) (a + k) = ws.getD k 0 := by
  rw [Memory.read_writeBytes _ _ _ _ hfit, if_pos (by omega), Nat.add_sub_cancel_left]

theorem Memory.read_writeBytes_of_outside {m : Memory} {a b last : Nat} {ws : List Byte}
    (hlen : ws.length = last + 1) (hfit : a + last ≤ 0xFFF) (hb : ¬(a ≤ b ∧ b ≤ a + last)) :
    Memory.read (Memory.writeBytes m a ws) b = Memory.read m b := by
  rw [Memory.read_writeBytes _ _ _ _ (by simp only [Config.memSize]; omega), if_neg (by omega)]

/-! ### The updates of the three instructions -/

theorem State.setMem_agreeOutside (s : State) (m : Memory) : agreeOutside [.memory] s (s.setMem m) := by
  intro p hp
  cases p <;> simp_all [Part.same]

theorem State.loadRegs_agreeOutside (s : State) (k : Nat) (ws : List Byte) :
    agreeOutside [.regs] s (s.loadRegs k ws) := by
  intro p hp
  cases p <;> simp_all [Part.same, State.stackAt, State.cell]

/-- After a transfer within memory `I` is one past its last byte, without wrap. -/
theorem State.toNat_advanceI {s : State} {x : RegIdx} (h : s.i.toNat + x.toNat ≤ 0xFFF) :
    (s.advanceI x).i.toNat = s.i.toNat + x.toNat + 1 := by
  simp only [State.advanceI_eq, State.setI_i]
  bv_omega

/-! ### Fx33 (R103) -/

/-- Each digit fits a byte. -/
theorem decimalDigits_toNat (b : Byte) :
    (decimalDigits b).map BitVec.toNat = [b.toNat / 100, b.toNat / 10 % 10, b.toNat % 10] := by
  have hb := b.isLt
  simp (disch := omega) [decimalDigits, Nat.mod_eq_of_lt]

/-- The state Fx33 within memory leaves. -/
def State.afterDigits (s : State) (x : RegIdx) : State :=
  (s.setMem (Memory.writeBytes s.mem s.i.toNat (decimalDigits (s.reg x)))).advance

theorem exec_ldBVx_of_fits {s : State} (x : RegIdx) (h : s.i.toNat + 2 ≤ 0xFFF) :
    exec (.ldBVx x) s = .next (s.afterDigits x) :=
  congrArg _ (s.guardFootprint_of_last_le _ h)

/-- Byte `k` of the footprint is digit `k`, the hundreds first. -/
theorem State.toNat_read_afterDigits {s : State} (x : RegIdx) (h : s.i.toNat + 2 ≤ 0xFFF) (k : Nat)
    (hk : k < 3) :
    (Memory.read (s.afterDigits x).mem (s.i.toNat + k)).toNat =
      [(s.reg x).toNat / 100, (s.reg x).toNat / 10 % 10, (s.reg x).toNat % 10].getD k 0 := by
  have hread : Memory.read (s.afterDigits x).mem (s.i.toNat + k) = (decimalDigits (s.reg x)).getD k 0 :=
    Memory.read_writeBytes_add (Nat.succ_le_succ h) hk
  rw [hread, ← decimalDigits_toNat]
  exact (List.getD_map ..).symm

/-- Settles O52: the bytes of the footprint are the digits; a footprint that leaves memory is the fault. -/
theorem storeDecimalDigits : Obligations.StoreDecimalDigits := by
  refine ⟨encodedAs_formatX (mk := .ldBVx) 0xF 0x33 rfl fun _ => rfl,
    fun x s => ⟨fun h => ?_, s.guardFootprint_faultsWith _⟩⟩
  have hdigit := State.toNat_read_afterDigits x h
  refine ⟨s.afterDigits x, exec_ldBVx_of_fits x h, hdigit 0 (by decide), hdigit 1 (by decide), hdigit 2 (by decide),
    fun _ => Memory.read_writeBytes_of_outside rfl h, rfl, ?_⟩
  exact (s.setMem_agreeOutside _).trans (State.setPc_agreeOutside _ _)

/-! ### Fx55 (R104) -/

/-- Settles O53: the bytes of the footprint are the registers; a footprint that leaves memory is the fault. -/
theorem storeRegisters : Obligations.StoreRegisters := by
  refine ⟨encodedAs_formatX (mk := .ldMemVx) 0xF 0x55 rfl fun _ => rfl,
    fun x s => ⟨fun h => ?_, s.guardFootprint_faultsWith _⟩⟩
  refine ⟨s.afterStore x, exec_ldMemVx_of_fits h, fun _ => State.read_afterStore h,
    fun _ => Memory.read_writeBytes_of_outside (s.length_regsUpTo x) h, State.toNat_advanceI h, rfl, ?_⟩
  exact ((s.setMem_agreeOutside _).trans (State.setI_agreeOutside _ _)).trans (State.setPc_agreeOutside _ _)

/-! ### Fx65 (R105) -/

/-- The state Fx65 within memory leaves. -/
def State.afterLoad (s : State) (x : RegIdx) : State :=
  ((s.loadRegs 0 (Memory.readBytes s.mem s.i.toNat (x.toNat + 1))).advanceI x).advance

theorem exec_ldVxMem_of_fits {s : State} {x : RegIdx} (h : s.i.toNat + x.toNat ≤ 0xFFF) :
    exec (.ldVxMem x) s = .next (s.afterLoad x) :=
  congrArg _ (s.guardFootprint_of_last_le _ h)

/-- The registers up to V[x] are the bytes of the footprint, and the others are not touched. -/
theorem State.afterLoad_reg (s : State) (x k : RegIdx) :
    (s.afterLoad x).reg k =
      if k.toNat ≤ x.toNat then Memory.read s.mem (s.i.toNat + k.toNat) else s.reg k := by
  have hx := x.isLt
  have hreg : (s.afterLoad x).reg k =
      (s.loadRegs 0 (Memory.readBytes s.mem s.i.toNat (x.toNat + 1))).reg k := rfl
  rw [hreg, State.loadRegs_reg _ _ _ _ (by simp; omega), Memory.length_readBytes]
  by_cases hk : k.toNat ≤ x.toNat
  · rw [if_pos (by omega), if_pos hk, Nat.sub_zero, Memory.getD_readBytes _ _ _ _ (by omega)]
  · rw [if_neg (by omega), if_neg hk]

theorem State.afterLoad_i {s : State} {x : RegIdx} (h : s.i.toNat + x.toNat ≤ 0xFFF) :
    (s.afterLoad x).i.toNat = s.i.toNat + x.toNat + 1 := by
  have hi : (s.afterLoad x).i = (s.advanceI x).i := by simp [State.afterLoad]
  rw [hi, State.toNat_advanceI h]

/-- Settles O54: the registers of the range are the bytes of the footprint; a footprint that leaves memory is the
fault. -/
theorem loadRegisters : Obligations.LoadRegisters := by
  refine ⟨encodedAs_formatX (mk := .ldVxMem) 0xF 0x65 rfl fun _ => rfl,
    fun x s => ⟨fun h => ?_, s.guardFootprint_faultsWith _⟩⟩
  refine ⟨s.afterLoad x, exec_ldVxMem_of_fits h, fun k hk => ?_, fun k hk => ?_, State.afterLoad_i h, ?_, ?_⟩
  · exact (s.afterLoad_reg x k).trans (if_pos hk)
  · exact (s.afterLoad_reg x k).trans (if_neg (Nat.not_le_of_lt hk))
  · simp [State.afterLoad]
  · exact ((s.loadRegs_agreeOutside 0 _).trans (State.setI_agreeOutside _ _)).trans
      (State.setPc_agreeOutside _ _)

end Sys2Proof.Machine
end

section
/-! PROOFS. The keypad and the timers: Ex9E, ExA1, Fx0A, Fx15 and Fx18 (spec 44_keypad_timers.md R110, R111, R113,
R114, R115; 60_exceptions.md R126; 92_eei_decisions.md D8, D21, D23). -/

namespace Sys2Proof.Machine

/-! ### Fx0A (R113) -/

theorem State.lowestKey_eq_none_iff_keys_eq_zero (s : State) : s.lowestKey = none ↔ s.keys = 0x0000 := by
  rw [s.lowestKey_eq_none, BitVec.eq_of_getLsbD_eq_iff]
  simp [State.keyDown]

theorem exec_ldVxK_of_none {s : State} {x : RegIdx} (h : s.lowestKey = none) : exec (.ldVxK x) s = .next s := by
  simp [exec, execLdVxK, h]

theorem exec_ldVxK_of_some {s : State} {x : RegIdx} {k : Nat} (h : s.lowestKey = some k) :
    exec (.ldVxK x) s = .next (s.setReg x (BitVec.ofNat 8 k)).advance := by
  simp [exec, execLdVxK, h]

/-- Settles O58: by what the key scan finds; a key it finds is below 16, so a byte holds its number. -/
theorem waitForKey : Obligations.WaitForKey := by
  refine ⟨encodedAs_formatX (mk := .ldVxK) 0xF 0x0A rfl fun _ => rfl, fun x s => ⟨fun hup => ?_, fun hdown => ?_⟩⟩
  · exact exec_ldVxK_of_none (s.lowestKey_eq_none_iff_keys_eq_zero.2 hup)
  · obtain ⟨k, hk⟩ := Option.ne_none_iff_exists'.1 (mt s.lowestKey_eq_none_iff_keys_eq_zero.1 hdown)
    obtain ⟨hlt, hkey, hleast⟩ := (s.lowestKey_eq_some k).1 hk
    have hbyte : (BitVec.ofNat 8 k).toNat = k := Nat.mod_eq_of_lt (by omega)
    obtain ⟨t, hexec, ht⟩ := exec_of_setReg (BitVec.toNat · = k) (exec_ldVxK_of_some (x := x) hk) hbyte
    exact ⟨k, t, hlt, hkey, hleast, hexec, ht⟩

/-! ### Ex9E and ExA1 (R110, R111) -/

/-- A key number above 15 is a fault that records it, whatever the body. -/
theorem State.guardKey_faultsWith (s : State) {x : RegIdx} (body : State) (h : 15 < (s.reg x).toNat) :
    faultsWith s (.next (s.guardKey x body)) .keyIndexOutOfRange (zext8 (s.reg x)) := by
  rw [State.guardKey, if_pos h]
  exact s.raise_faultsWith _ _

/-- Settles O56: with a key number both are the skip on the level of that key, one with it negated; a number above
15 is the fault. -/
theorem skipOnKey : Obligations.SkipOnKey := by
  refine ⟨encodedAs_formatX (mk := .skp) 0xE 0x9E rfl fun _ => rfl,
    encodedAs_formatX (mk := .sknp) 0xE 0xA1 rfl fun _ => rfl,
    fun x s => ⟨fun h => ⟨?_, ?_⟩, fun h => ⟨s.guardKey_faultsWith _ h, s.guardKey_faultsWith _ h⟩⟩⟩
  · exact exec_of_skipIf (congrArg _ (s.guardKey_of_le x _ h)) Iff.rfl Iff.rfl
  · exact exec_of_skipIf (congrArg _ (s.guardKey_of_le x _ h)) (Bool.not_eq_true' _).to_iff
      (Bool.not_eq_false' _).to_iff

/-! ### Fx15 and Fx18 (R114, R115) -/

theorem State.setDt_agreeOutside (s : State) (w : Byte) : agreeOutside [.delay] s (s.setDt w) := by
  intro p hp
  cases p <;> simp_all [Part.same]

theorem State.setSt_agreeOutside (s : State) (w : Byte) : agreeOutside [.sound] s (s.setSt w) := by
  intro p hp
  cases p <;> simp_all [Part.same]

/-- Settles O59: each is a write of its timer, then pc. -/
theorem writeTimers : Obligations.WriteTimers := by
  refine ⟨encodedAs_formatX (mk := .ldDtVx) 0xF 0x15 rfl fun _ => rfl,
    encodedAs_formatX (mk := .ldStVx) 0xF 0x18 rfl fun _ => rfl,
    fun _ s => ⟨⟨_, rfl, rfl, rfl, ?_⟩, ⟨_, rfl, rfl, rfl, ?_⟩⟩⟩
  · exact (s.setDt_agreeOutside _).trans (State.setPc_agreeOutside _ _)
  · exact (s.setSt_agreeOutside _).trans (State.setPc_agreeOutside _ _)

end Sys2Proof.Machine
end

section
/-! PROOFS. The Tick, one and any number in a row (spec 60_exceptions.md R134; 92_eei_decisions.md D24; log entry 2). -/

namespace Sys2Proof.Machine

/-! ### The timers -/

theorem State.tick_dt_toNat (s : State) : s.tick.dt.toNat = s.dt.toNat - 1 := by
  rw [State.tick_dt]
  split <;> bv_omega

theorem State.tick_st_toNat (s : State) : s.tick.st.toNat = s.st.toNat - 1 := by
  rw [State.tick_st]
  split <;> bv_omega

/-! ### The frame -/

theorem State.consume_agreeOutside (s : State) : agreeOutside [.queue] s s.consume := by
  intro p hp
  cases p <;> simp_all [Part.same]

theorem State.tick_agreeOutside (s : State) : agreeOutside [.delay, .sound] s s.tick := by
  intro p hp
  cases p <;> simp_all [Part.same]

theorem State.consume_tick_agreeOutside (s : State) :
    agreeOutside [.delay, .sound, .queue] s s.consume.tick :=
  agreeOutside_mono (s.consume_agreeOutside.trans s.consume.tick_agreeOutside) (by decide)

/-! ### One Tick -/

theorem step_of_nextTransaction_tick {s : State} (h : s.nextTransaction = .tick) :
    step s = .next s.consume.tick := by
  simp [step, State.transact, h]

/-- Settles O11: the step is the Tick on the state that the queue has left, and a timer at 0 has nothing to lose. -/
theorem tickDecrementsTimers : Obligations.TickDecrementsTimers := by
  intro s h
  have hdt : s.consume.tick.dt.toNat = s.dt.toNat - 1 := by rw [State.tick_dt_toNat, State.consume_dt]
  have hst : s.consume.tick.st.toNat = s.st.toNat - 1 := by rw [State.tick_st_toNat, State.consume_st]
  refine ⟨s.consume.tick, step_of_nextTransaction_tick h, fun hpos => ?_, fun hzero => ?_, fun hpos => ?_,
    fun hzero => ?_, s.consume_tick_agreeOutside⟩
  · omega
  · exact BitVec.eq_of_toNat_eq (by rw [hdt, hzero]; rfl)
  · omega
  · exact BitVec.eq_of_toNat_eq (by rw [hst, hzero]; rfl)

/-! ### Ticks in a row -/

theorem Part.same_refl (p : Part) (s : State) : p.same s s := by
  cases p with
  | regs | stack | memory => exact fun _ => rfl
  | frame => exact fun _ _ => rfl
  | index | pc | sp | delay | sound => exact rfl
  | status => exact ⟨rfl, rfl, rfl⟩
  | inputs | queue => exact ⟨rfl, rfl⟩

theorem State.steps_succ_of_step {s t : State} (h : step s = .next t) (n : Nat) : s.steps (n + 1) = t.steps n := by
  simp [State.steps, h]

/-- Settles O60, by induction on the number of Ticks: the first takes one from each timer that is above 0. -/
theorem anyNumberOfTicks : Obligations.AnyNumberOfTicks := by
  intro n
  induction n with
  | zero => exact fun s rest hq => ⟨s, rfl, hq, rfl, rfl, rfl, fun p _ => p.same_refl s⟩
  | succ n ih =>
    intro s rest hq
    have hcons : s.schedule = .tick :: (List.replicate n .tick ++ rest) := hq
    have htail : s.consume.tick.schedule = List.replicate n .tick ++ rest := by simp [hcons]
    obtain ⟨t, hsteps, hsched, hdraws, hdt, hst, hframe⟩ := ih s.consume.tick rest htail
    refine ⟨t, ?_, hsched, ?_, ?_, ?_, ?_⟩
    · rw [State.steps_succ_of_step (step_of_nextTransaction_tick (State.nextTransaction_of_cons hcons)), hsteps]
    · rw [hdraws, State.tick_draws, State.consume_draws_of_cons hcons]
    · rw [hdt, State.tick_dt_toNat, State.consume_dt, Nat.sub_sub, Nat.add_comm]
    · rw [hst, State.tick_st_toNat, State.consume_st, Nat.sub_sub, Nat.add_comm]
    · exact agreeOutside_mono (s.consume_tick_agreeOutside.trans hframe) (by decide)

end Sys2Proof.Machine
end

section
/-! PROOFS. The faults: which instruction raises which, and that a step into FAULTED has only raised one (spec
60_exceptions.md R120, R123 to R128; 92_eei_decisions.md D5 to D8, D10). -/

namespace Sys2Proof.Machine

/-! ### The faults of instructions -/

/-- The instruction faults in the state with the cause and the info given (R123 to R126). -/
inductive RaisesFault (s : State) : Instr → FaultCause → Word → Prop where
  | call {nnn : Addr12} (hfull : s.sp = 15) : RaisesFault s (.call nnn) .stackOverflow s.pc
  | ret (hempty : s.sp = 0) : RaisesFault s .ret .stackUnderflow s.pc
  | drw {x y : RegIdx} {n : Nibble} (hn : 0 < n.toNat) (hleaves : 0xFFF < s.i.toNat + (n.toNat - 1)) :
    RaisesFault s (.drw x y n) .memOutOfBounds (firstBeyond s.i)
  | ldBVx {x : RegIdx} (hleaves : 0xFFF < s.i.toNat + 2) :
    RaisesFault s (.ldBVx x) .memOutOfBounds (firstBeyond s.i)
  | ldMemVx {x : RegIdx} (hleaves : 0xFFF < s.i.toNat + x.toNat) :
    RaisesFault s (.ldMemVx x) .memOutOfBounds (firstBeyond s.i)
  | ldVxMem {x : RegIdx} (hleaves : 0xFFF < s.i.toNat + x.toNat) :
    RaisesFault s (.ldVxMem x) .memOutOfBounds (firstBeyond s.i)
  | skp {x : RegIdx} (hkey : 15 < (s.reg x).toNat) :
    RaisesFault s (.skp x) .keyIndexOutOfRange (zext8 (s.reg x))
  | sknp {x : RegIdx} (hkey : 15 < (s.reg x).toNat) :
    RaisesFault s (.sknp x) .keyIndexOutOfRange (zext8 (s.reg x))

theorem RaisesFault.cause_ne_none {s : State} {i : Instr} {cause : FaultCause} {info : Word}
    (h : RaisesFault s i cause info) : cause ≠ .none := by
  cases h <;> decide

/-- From `s` the instruction leads to `t`, and the run state is kept or all that happens is the instruction's fault. -/
def KeepsRunOrFaults (s : State) (i : Instr) (t : State) : Prop :=
  t.run = s.run ∨ ∃ cause info, RaisesFault s i cause info ∧ t = s.raise cause info

theorem State.guardFootprint_keepsRunOrFaults {s body : State} {i : Instr} {len : Nat} (hbody : body.run = s.run)
    (hraise : 0 < len → 0xFFF < s.i.toNat + (len - 1) → RaisesFault s i .memOutOfBounds (firstBeyond s.i)) :
    KeepsRunOrFaults s i (s.guardFootprint len body) := by
  rcases s.guardFootprint_cases len body with ⟨hg, -⟩ | ⟨_, -, hlen, hleaves, -⟩
  · exact .inl (hg.symm ▸ hbody)
  · have hlast : 0xFFF < s.i.toNat + (len - 1) := by
      simp only [Config.memSize] at hleaves
      omega
    exact .inr ⟨_, _, hraise hlen hlast, s.guardFootprint_of_leaves body hlen hleaves⟩

theorem State.guardKey_keepsRunOrFaults {s body : State} {i : Instr} {x : RegIdx} (hbody : body.run = s.run)
    (hraise : 15 < (s.reg x).toNat → RaisesFault s i .keyIndexOutOfRange (zext8 (s.reg x))) :
    KeepsRunOrFaults s i (s.guardKey x body) := by
  rcases s.guardKey_cases x body with ⟨hg, -⟩ | ⟨hg, hkey⟩
  · exact .inl (hg.symm ▸ hbody)
  · exact .inr ⟨_, _, hraise hkey, hg⟩

theorem after_of_exec {s t : State} {i : Instr} (h : exec i s = .next t) : after s i = t :=
  Host.Outcome.next.inj ((exec_eq_after i s).symm.trans h)

/-- Everything an instruction can do to the run state. -/
theorem after_keepsRunOrFaults (s : State) (i : Instr) : KeepsRunOrFaults s i (after s i) := by
  cases i with
  | call nnn =>
    by_cases h : s.sp = 15
    · exact .inr ⟨_, _, .call h, after_of_exec (exec_call_of_eq nnn h)⟩
    · rw [after_of_exec (exec_call_of_ne nnn h)]
      exact .inl rfl
  | ret =>
    by_cases h : s.sp = 0
    · exact .inr ⟨_, _, .ret h, after_of_exec (exec_ret_of_eq h)⟩
    · rw [after_of_exec (exec_ret_of_ne h)]
      exact .inl rfl
  | drw => exact State.guardFootprint_keepsRunOrFaults rfl .drw
  | ldBVx => exact State.guardFootprint_keepsRunOrFaults rfl fun _ => .ldBVx
  | ldMemVx => exact State.guardFootprint_keepsRunOrFaults rfl fun _ => .ldMemVx
  | ldVxMem => exact State.guardFootprint_keepsRunOrFaults (by simp) fun _ => .ldVxMem
  | skp => exact State.guardKey_keepsRunOrFaults rfl .skp
  | sknp => exact State.guardKey_keepsRunOrFaults rfl .sknp
  | ldVxK x =>
    left
    cases hk : s.lowestKey with
    | none => rw [after_of_exec (exec_ldVxK_of_none hk)]
    | some k =>
      rw [after_of_exec (exec_ldVxK_of_some hk)]
      rfl
  | cls | jp | seImm | sneImm | seReg | sneReg | ldImm | addImm | ldReg | orReg | andReg | xorReg | addReg
  | subReg | shr | subnReg | shl | ldI | jpV0 | rnd | ldVxDt | ldDtVx | ldStVx | addIVx | ldFVx =>
    exact .inl rfl

/-- A run state that changed from RUNNING to FAULTED was not kept. -/
theorem run_ne_of_faulted {s t : State} (hrun : s.run = .running) (hfault : t.run = .faulted) : t.run ≠ s.run := by
  simp [hrun, hfault]

/-- Settles O23: what took the core to FAULTED is the instruction's own fault, one clause for each. -/
theorem faultCausesOfInstructions : Obligations.FaultCausesOfInstructions := by
  intro i s t h hrun hfault
  obtain rfl := after_of_exec h
  obtain ⟨cause, info, hraise, hafter⟩ :=
    (after_keepsRunOrFaults s i).resolve_left (run_ne_of_faulted hrun hfault)
  rw [hafter]
  cases hraise with
  | call hsp => exact .inl ⟨_, rfl, hsp, rfl, rfl⟩
  | ret hsp => exact .inr (.inl ⟨rfl, hsp, rfl, rfl⟩)
  | drw hn hleaves =>
    refine .inr (.inr (.inl ⟨⟨_, _, _, rfl, ?_, ?_⟩, rfl, rfl⟩))
    · rintro rfl
      exact absurd hn (by decide)
    · omega
  | ldBVx hleaves => exact .inr (.inr (.inr (.inl ⟨⟨_, rfl⟩, hleaves, rfl, rfl⟩)))
  | ldMemVx hleaves => exact .inr (.inr (.inr (.inr (.inl ⟨⟨_, .inl rfl, hleaves⟩, rfl, rfl⟩))))
  | ldVxMem hleaves => exact .inr (.inr (.inr (.inr (.inl ⟨⟨_, .inr rfl, hleaves⟩, rfl, rfl⟩))))
  | skp hkey =>
    exact .inr (.inr (.inr (.inr (.inr ⟨⟨_, .inl rfl, hkey, BitVec.toNat_setWidth_of_le (by decide)⟩, rfl⟩))))
  | sknp hkey =>
    exact .inr (.inr (.inr (.inr (.inr ⟨⟨_, .inr rfl, hkey, BitVec.toNat_setWidth_of_le (by decide)⟩, rfl⟩))))

/-! ### Precise faults (R128) -/

/-- A cycle that takes the core to FAULTED does nothing but raise a fault, of the fetch, the decode or the
instruction. -/
theorem State.cycle_eq_raise {s t : State} (h : s.cycle = .next t) (hrun : s.run = .running)
    (hfault : t.run = .faulted) : ∃ cause info, cause ≠ .none ∧ t = s.raise cause info := by
  have hne := run_ne_of_faulted hrun hfault
  rcases s.cycle_cases with ⟨-, hc⟩ | ⟨-, -, hc⟩ | ⟨-, -, -, hc⟩ | ⟨i, -, -, -, hc⟩ <;>
    obtain rfl := Host.Outcome.next.inj (hc.symm.trans h)
  · exact absurd rfl hne
  · exact ⟨_, _, by decide, rfl⟩
  · exact ⟨_, _, by decide, rfl⟩
  · obtain ⟨cause, info, hraise, hafter⟩ := (after_keepsRunOrFaults s i).resolve_left hne
    exact ⟨cause, info, hraise.cause_ne_none, hafter⟩

theorem State.load_run (s : State) (image : List Byte) : (s.load image).run = .running := by
  rcases s.load_cases image with ⟨-, hl⟩ | ⟨-, hl⟩ <;> rw [hl] <;> rfl

/-- A step that takes the core from RUNNING to FAULTED is a Step. -/
theorem step_of_run_faulted {s t : State} (h : step s = .next t) (hrun : s.run = .running)
    (hfault : t.run = .faulted) : ∃ keys rnd, s.nextTransaction = .step keys rnd := by
  have hne := run_ne_of_faulted hrun hfault
  rcases step_cases s with ⟨keys, rnd, hnext, -⟩ | ⟨-, hs⟩ | ⟨-, hs⟩ | ⟨image, -, hs⟩
  · exact ⟨keys, rnd, hnext⟩
  all_goals obtain rfl := Host.Outcome.next.inj (hs.symm.trans h)
  · exact absurd s.consume_run hne
  · exact absurd hrun.symm hne
  · exact absurd ((s.consume.load_run image).trans hrun.symm) hne

/-- Settles O21: the step is a Step, and its cycle raises a fault over the begun state, whose core is that of `s`. -/
theorem faultsArePrecise : Obligations.FaultsArePrecise := by
  intro s t h hrun hfault
  obtain ⟨keys, rnd, hnext⟩ := step_of_run_faulted h hrun hfault
  have hcycle : (s.begun keys rnd).cycle = .next t := (step_of_nextTransaction_step hnext).symm.trans h
  obtain ⟨cause, info, hcause, rfl⟩ := State.cycle_eq_raise hcycle (s.consume_run.trans hrun) hfault
  have hframe := (s.begun_sameCore keys rnd).trans ((s.begun keys rnd).raise_agreeOutside cause info)
  exact ⟨⟨keys, rnd, hnext⟩, hcause, s.consume_pc, agreeOutside_mono hframe (by decide)⟩

end Sys2Proof.Machine
end

section
/-! PROOFS. Reset and Load, from any state (spec 70_reset_and_hazards.md R150, R151; 92_eei_decisions.md D9, D26;
log entries 5, 7). -/

namespace Sys2Proof.Machine

/-! ### Reset -/

theorem step_of_nextTransaction_reset {s : State} (h : s.nextTransaction = .reset) :
    step s = .next s.consume.resetCore := by
  simp [step, State.transact, h]

/-- Settles O12: after Reset every part of the core is that of the reset state, and so has its reset value. -/
theorem resetSetsEverything : Obligations.ResetSetsEverything := by
  intro s h
  have hreset := s.consume.resetCore_agreeOutside
  obtain ⟨hrun, hcause, hinfo⟩ := hreset .status (by decide)
  exact ⟨_, step_of_nextTransaction_reset h,
    fun a => (hreset .memory (by decide) a).trans (State.reset_read a),
    fun k => (hreset .regs (by decide) k).trans (State.reset_reg k),
    fun k => (hreset .stack (by decide) k).trans (State.reset_stackAt k),
    fun r c => (hreset .frame (by decide) r c).trans (State.reset_cell r c),
    hreset .index (by decide), hreset .sp (by decide), hreset .delay (by decide), hreset .sound (by decide),
    hreset .pc (by decide), hrun, hcause, hinfo⟩

/-! ### Load -/

theorem step_of_nextTransaction_load {s : State} {image : List Byte} (h : s.nextTransaction = .load image) :
    step s = .next (s.consume.load image) := by
  simp [step, State.transact, h]

theorem loadResult_of_le {image : List Byte} (h : image.length ≤ Config.imageMax) : loadResult image = .ok :=
  if_neg (Nat.not_lt.2 h)

theorem loadResult_of_lt {image : List Byte} (h : Config.imageMax < image.length) :
    loadResult image = .imageTooLarge :=
  if_pos h

/-- Whether the image fits or not, Load leaves everything but memory as Reset does. -/
theorem State.load_agreeOutside (s : State) (image : List Byte) :
    agreeOutside [.queue, .memory] State.reset (s.load image) := by
  rcases s.load_cases image with ⟨-, hl⟩ | ⟨-, hl⟩ <;> rw [hl]
  · exact s.resetCore_agreeOutside.trans (s.resetCore.setMem_agreeOutside _)
  · exact agreeOutside_mono s.resetCore_agreeOutside (by decide)

theorem State.load_mem_of_le (s : State) {image : List Byte} (h : image.length ≤ Config.imageMax) :
    (s.load image).mem = Memory.writeBytes State.reset.mem 0x200 image := by
  rcases s.load_cases image with ⟨-, hl⟩ | ⟨hlt, -⟩
  · rw [hl]
    rfl
  · exact absurd h (Nat.not_le.2 hlt)

theorem State.load_of_lt (s : State) {image : List Byte} (h : Config.imageMax < image.length) :
    s.load image = s.resetCore := by
  rcases s.load_cases image with ⟨hle, -⟩ | ⟨-, hl⟩
  · exact absurd h (Nat.not_lt.2 hle)
  · exact hl

/-- Settles O15: an image of at most 3584 bytes ends within memory, so the copy's bytes read back at 0x200 and the
rest is as reset; a longer one is not copied at all. -/
theorem loadCopiesTheImage : Obligations.LoadCopiesTheImage := by
  intro s image h
  refine ⟨s.consume.load image, step_of_nextTransaction_load h,
    agreeOutside_mono (s.consume.load_agreeOutside image) (by decide), fun hle => ?_, fun hlt => ?_⟩
  · have hfit : 0x200 + image.length ≤ Config.memSize := by simp only [Config.memSize]; omega
    rw [s.consume.load_mem_of_le hle]
    refine ⟨loadResult_of_le hle, fun k hk => Memory.read_writeBytes_add hfit hk, fun a ha => ?_⟩
    rw [Memory.read_writeBytes _ _ _ _ hfit, if_neg ha]
  · rw [s.consume.load_of_lt hlt]
    exact ⟨loadResult_of_lt hlt, s.consume.resetCore_agreeOutside .memory (by decide)⟩

end Sys2Proof.Machine
end

section
/-! PROOFS. The opcode map against the decoder: its rows exclude one another, and the words it leaves out are the
illegal ones (spec 30_encoding.md R52, R57, R58; 92_eei_decisions.md D14). -/

namespace Sys2Proof

/-- Settles O5: two rows that fit a word both bear the mnemonic of what the word decodes to. -/
theorem opcodeRowsExclusive : Obligations.OpcodeRowsExclusive := by
  refine ⟨rfl, fun w r hr q hq hrfit hqfit => ?_⟩
  obtain ⟨i, hi, hrname⟩ := (decodeIsTheOpcodeMap w r hr).1 hrfit
  obtain ⟨j, hj, hqname⟩ := (decodeIsTheOpcodeMap w q hq).1 hqfit
  obtain rfl := Option.some.inj (hi.symm.trans hj)
  exact opcodeMap_eq_of_mnemonic hr hq (hrname.symm.trans hqname)

theorem wordLegal_iff_fits {w : Word} : wordLegal w = true ↔ ∃ r ∈ opcodeMap, r.fits w = true :=
  List.any_eq_true

/-- The legal words are those that decode. -/
theorem wordLegal_iff_decodes {w : Word} : wordLegal w = true ↔ ∃ i, decodeWord w = some i := by
  rw [wordLegal_iff_fits]
  constructor
  · rintro ⟨r, hr, hfit⟩
    obtain ⟨i, hi, -⟩ := (decodeIsTheOpcodeMap w r hr).1 hfit
    exact ⟨i, hi⟩
  · rintro ⟨i, hi⟩
    obtain ⟨r, hr, -, hfit⟩ := encode_fits_row i
    exact ⟨r, hr, encode_of_decodeWord hi ▸ hfit⟩

/-- Settles O6: both sides say that the word does not decode. -/
theorem illegalWordsAreUnmapped : Obligations.IllegalWordsAreUnmapped := fun w =>
  calc decodeWord w = none
      ↔ ¬∃ i, decodeWord w = some i := Option.eq_none_iff_forall_ne_some.trans not_exists.symm
    _ ↔ ¬wordLegal w = true := not_congr wordLegal_iff_decodes.symm
    _ ↔ wordLegal w = false := Bool.not_eq_true _ |>.to_iff

end Sys2Proof
end

section
/-! PROOFS. Every step answers; FAULTED and the codes of the status fields; the first Step of a core that was reset
and not loaded (spec 10_state.md R20; 60_exceptions.md R129; 70_reset_and_hazards.md R153; 92_eei_decisions.md D9,
D11, D24; log entry 6). -/

namespace Sys2Proof.Machine

/-! ### Every step answers a next state -/

theorem State.cycle_answers (s : State) : ∃ t, s.cycle = .next t := by
  rcases s.cycle_cases with ⟨-, hc⟩ | ⟨-, -, hc⟩ | ⟨-, -, -, hc⟩ | ⟨_, -, -, -, hc⟩ <;> exact ⟨_, hc⟩

/-- Settles O9: a Step by its cycle; the other three transactions cannot fault. -/
theorem everyStepAnswers : Obligations.EveryStepAnswers := by
  intro s
  rcases step_cases s with ⟨keys, rnd, -, hs⟩ | ⟨-, hs⟩ | ⟨-, hs⟩ | ⟨image, -, hs⟩
  · exact hs ▸ (s.begun keys rnd).cycle_answers
  all_goals exact ⟨_, hs⟩

/-! ### FAULTED (R129), and the status codes (R20) -/

/-- Settles O22: one clause for each transaction, by what it leaves of the core. -/
theorem faultedStays : Obligations.FaultedStays := by
  intro s t hfaulted ht
  refine ⟨?_, fun h => ?_, fun h => ?_, fun image h => ?_⟩
  · rintro ⟨keys, rnd, h⟩
    obtain rfl := Host.Outcome.next.inj ((step_of_faulted h hfaulted).symm.trans ht)
    exact s.begun_sameCore keys rnd
  · obtain rfl := Host.Outcome.next.inj ((step_of_nextTransaction_tick h).symm.trans ht)
    exact agreeOutside_mono s.consume_tick_agreeOutside (by decide)
  · obtain rfl := Host.Outcome.next.inj ((step_of_nextTransaction_reset h).symm.trans ht)
    exact ⟨rfl, agreeOutside_mono s.consume.resetCore_agreeOutside (by decide)⟩
  · obtain rfl := Host.Outcome.next.inj ((step_of_nextTransaction_load h).symm.trans ht)
    exact ⟨s.consume.load_run image, agreeOutside_mono (s.consume.load_agreeOutside image) (by decide)⟩

/-- Settles O24: by the codes of the seven causes. -/
theorem statusFieldCodes : Obligations.StatusFieldCodes := by
  refine ⟨rfl, rfl, rfl, rfl, rfl, rfl, rfl, rfl, rfl, fun c => ?_⟩
  cases c <;> decide

/-! ### The first Step without an image (R153) -/

/-- Past the font a core as after Reset reads 0x00, so 0x0000 is the word at the entry. -/
theorem readWord_entry_of_sameCore_reset {s : State} (h : sameCore State.reset s) :
    Memory.readWord s.mem 0x200 = 0x0000 := by
  have hread : ∀ a, Memory.read s.mem a = font.getD a 0x00 := h .memory (by decide)
  rw [Memory.readWord, hread, hread]
  decide

/-- Settles O16: the Step fetches 0x0000 at the entry, which decodes to nothing. -/
theorem firstStepWithoutAnImage : Obligations.FirstStepWithoutAnImage := by
  intro s keys rnd hcore hnext
  obtain ⟨hrun, -, -⟩ := hcore .status (by decide)
  have hpc : s.pc = 0x0200 := hcore .pc (by decide)
  have hword : Memory.readWord s.mem s.pc.toNat = 0x0000 := hpc ▸ readWord_entry_of_sameCore_reset hcore
  have hstep := step_of_illegal hnext hrun (by rw [hpc]; decide) (by rw [hword]; decide)
  rw [hword] at hstep
  have hframe := (hcore.trans (s.begun_sameCore keys rnd)).trans
    ((s.begun keys rnd).raise_agreeOutside .unimplementedOpcode 0x0000)
  exact ⟨_, hstep, rfl, rfl, rfl, s.consume_pc.trans hpc, agreeOutside_mono hframe (by decide)⟩

end Sys2Proof.Machine
end

section
/-! PROOFS. Memory as data: the canonical form, and the font in the reset memory (spec 20_memory.md R31;
10_state.md R19; log entries 5, 14). -/

namespace Sys2Proof.Machine

/-! ### The canonical form is canonical -/

theorem Memory.read_cons_self (a : Nat) (w : Byte) (m : Memory) : Memory.read ((a, w) :: m) a = w := if_pos rfl

theorem Memory.read_cons_of_ne {a b : Nat} (w : Byte) (m : Memory) (h : b ≠ a) :
    Memory.read ((a, w) :: m) b = Memory.read m b := if_neg h

theorem Memory.wf_cons {c : Host.Cell} {m : Memory} (h : Memory.wf (c :: m)) :
    (∀ d ∈ m, c.1 < d.1) ∧ c.2 ≠ unlisted c.1 ∧ m.wf := by
  obtain ⟨hrise, hcells⟩ := h
  obtain ⟨hfirst, hrest⟩ := List.pairwise_cons.1 hrise
  obtain ⟨⟨-, hne⟩, hcells⟩ := List.forall_mem_cons.1 hcells
  exact ⟨hfirst, hne, hrest, hcells⟩

/-- The first listed byte differs from its reset contents, so a memory that reads alike lists something no later. -/
theorem Memory.not_lt_of_read_eq {a : Nat} {w : Byte} {m m' : Memory} (h : Memory.wf ((a, w) :: m))
    (hread : Memory.read ((a, w) :: m) a = Memory.read m' a) : ¬∀ c ∈ m', a < c.1 := by
  intro hlater
  obtain ⟨-, hne, -⟩ := Memory.wf_cons h
  rw [Memory.read_cons_self, Memory.read_of_lt hlater] at hread
  exact hne hread

/-- Memories that read alike and begin with the same address have tails that read alike. -/
theorem Memory.read_tail_eq {a : Nat} {w w' : Byte} {m m' : Memory} (h : Memory.wf ((a, w) :: m))
    (h' : Memory.wf ((a, w') :: m')) (hread : ∀ b, Memory.read ((a, w) :: m) b = Memory.read ((a, w') :: m') b)
    (b : Nat) : Memory.read m b = Memory.read m' b := by
  obtain ⟨hlater, -, -⟩ := Memory.wf_cons h
  obtain ⟨hlater', -, -⟩ := Memory.wf_cons h'
  by_cases hb : b = a
  · rw [hb, Memory.read_of_lt hlater, Memory.read_of_lt hlater']
  · rw [← Memory.read_cons_of_ne w m hb, hread, Memory.read_cons_of_ne w' m' hb]

/-- Where the first listed address is below another memory's, the two do not read alike. -/
theorem Memory.not_lt_head_of_read_eq {a a' : Nat} {w w' : Byte} {m m' : Memory} (h : Memory.wf ((a, w) :: m))
    (h' : Memory.wf ((a', w') :: m'))
    (hread : ∀ b, Memory.read ((a, w) :: m) b = Memory.read ((a', w') :: m') b) : ¬a < a' := by
  intro hlt
  obtain ⟨hlater, -, -⟩ := Memory.wf_cons h'
  exact Memory.not_lt_of_read_eq h (hread a)
    (List.forall_mem_cons.2 ⟨hlt, fun c hc => hlt.trans (hlater c hc)⟩)

/-- Settles O19, by induction on the list: two memories that read alike list the same first byte or none. -/
theorem memoryFormIsCanonical : Obligations.MemoryFormIsCanonical := by
  intro m
  induction m with
  | nil =>
    rintro (_ | ⟨⟨a', w'⟩, m'⟩) - h' hread
    · rfl
    · exact absurd (List.forall_mem_nil _) (Memory.not_lt_of_read_eq h' (hread a').symm)
  | cons c m ih =>
    obtain ⟨a, w⟩ := c
    rintro (_ | ⟨⟨a', w'⟩, m'⟩) h h' hread
    · exact absurd (List.forall_mem_nil _) (Memory.not_lt_of_read_eq h (hread a))
    · have hge := Memory.not_lt_head_of_read_eq h h' hread
      have hle := Memory.not_lt_head_of_read_eq h' h fun b => (hread b).symm
      obtain rfl : a = a' := by omega
      have hw : w = w' := by simpa only [Memory.read_cons_self] using hread a
      obtain ⟨-, -, hm⟩ := Memory.wf_cons h
      obtain ⟨-, -, hm'⟩ := Memory.wf_cons h'
      rw [hw, ih m' hm hm' (Memory.read_tail_eq h h' hread)]

/-! ### The font (R31) -/

theorem font_lowNibble_zero : ∀ b ∈ font, b &&& 0x0F = 0x00 := by decide

theorem State.reset_read_mem_font {a : Nat} (h : a < 80) : Memory.read State.reset.mem a ∈ font := by
  have hlt : a < font.length := length_font ▸ h
  rw [State.reset_read, List.getD_eq_getElem _ _ hlt]
  exact List.getElem_mem hlt

/-- Settles O14: the two glyphs by reading them; a byte of any glyph is a byte of the font. -/
theorem fontLayout : Obligations.FontLayout := by
  refine ⟨by decide, by decide, fun g r hg hr => ?_⟩
  exact font_lowNibble_zero _ (State.reset_read_mem_font (by omega))

end Sys2Proof.Machine
end

section
/-! PROOFS. The frame of every instruction in a step that does not fault (spec 10_state.md R29). -/

namespace Sys2Proof.Machine

/-! ### A guarded body that did not fault -/

theorem State.guardFootprint_of_running {s body : State} {len : Nat}
    (h : (s.guardFootprint len body).run = .running) :
    s.guardFootprint len body = body ∧ (len = 0 ∨ s.i.toNat + len ≤ Config.memSize) := by
  rcases s.guardFootprint_cases len body with hbody | ⟨_, hg, -⟩
  · exact hbody
  · rw [hg] at h
    cases h

theorem State.guardKey_of_running {s body : State} {x : RegIdx} (h : (s.guardKey x body).run = .running) :
    s.guardKey x body = body := by
  rcases s.guardKey_cases x body with ⟨hbody, -⟩ | ⟨hg, -⟩
  · exact hbody
  · rw [hg] at h
    cases h

theorem State.guardFootprint_agreeOutside_of_running {ps : List Part} {s body : State} {len : Nat}
    (h : (s.guardFootprint len body).run = .running) (hbody : agreeOutside ps s body) :
    agreeOutside ps s (s.guardFootprint len body) := by
  obtain ⟨hg, -⟩ := State.guardFootprint_of_running h
  exact hg.symm ▸ hbody

theorem State.guardKey_agreeOutside_of_running {ps : List Part} {s body : State} {x : RegIdx}
    (h : (s.guardKey x body).run = .running) (hbody : agreeOutside ps s body) :
    agreeOutside ps s (s.guardKey x body) :=
  (State.guardKey_of_running h).symm ▸ hbody

/-! ### Frames that end with the write of pc -/

/-- An update of some parts, then of pc. -/
theorem agreeOutside.setPc {ps : List Part} {s t : State} (h : agreeOutside ps s t) (w : Word) :
    agreeOutside (.pc :: ps) s (t.setPc w) :=
  agreeOutside_mono (h.trans (t.setPc_agreeOutside w)) fun _ hp =>
    (List.mem_append.1 hp).elim (List.mem_cons_of_mem _) fun hp => List.mem_singleton.1 hp ▸ List.mem_cons_self

theorem State.setResultFlag_agreeOutside (s : State) (x : RegIdx) (result : Byte) (flag : Bool) :
    agreeOutside [.regs] s (s.setResultFlag x result flag) :=
  agreeOutside_mono ((s.setReg_agreeOutside x result).trans (State.setReg_agreeOutside _ _ _)) (by decide)

theorem State.setResultFlag_reg_of_ne (s : State) {x k : RegIdx} (result : Byte) (flag : Bool) (hx : k ≠ x)
    (hf : k ≠ regF) : (s.setResultFlag x result flag).reg k = s.reg k := by
  rw [State.setResultFlag_eq, State.setReg_reg, if_neg hf, State.setReg_reg, if_neg hx]

theorem Memory.read_writeBytes_of_not_stored {m : Memory} {a b : Nat} {ws : List Byte}
    (hfit : a + ws.length ≤ Config.memSize) (hb : ¬(a ≤ b ∧ b < a + ws.length)) :
    Memory.read (Memory.writeBytes m a ws) b = Memory.read m b :=
  (Memory.read_writeBytes m a ws b hfit).trans (if_neg hb)

/-! ### The three clauses -/

section
variable {s : State} {i : Instr} (hrun : (after s i).run = .running)
include hrun

/-- The W columns of R29. -/
theorem after_agreeOutside : agreeOutside (.pc :: writtenParts i) s (after s i) := by
  cases i with
  | jp | seImm | sneImm | seReg | sneReg | jpV0 => exact s.setPc_agreeOutside _
  | ldImm | addImm | ldReg | orReg | andReg | xorReg | rnd | ldVxDt => exact (s.setReg_agreeOutside _ _).setPc _
  | addReg | subReg | shr | subnReg | shl => exact (s.setResultFlag_agreeOutside _ _ _).setPc _
  | ldI | addIVx | ldFVx => exact (s.setI_agreeOutside _).setPc _
  | cls => exact (s.setFb_agreeOutside _).setPc _
  | ldDtVx => exact (s.setDt_agreeOutside _).setPc _
  | ldStVx => exact (s.setSt_agreeOutside _).setPc _
  | ret =>
    by_cases hsp : s.sp = 0
    · rw [after_of_exec (exec_ret_of_eq hsp)] at hrun
      cases hrun
    · rw [after_of_exec (exec_ret_of_ne hsp)]
      exact s.pop_agreeOutside.setPc _
  | call nnn =>
    by_cases hsp : s.sp = 15
    · rw [after_of_exec (exec_call_of_eq nnn hsp)] at hrun
      cases hrun
    · rw [after_of_exec (exec_call_of_ne nnn hsp)]
      exact (s.push_agreeOutside _).setPc _
  | skp | sknp =>
    exact State.guardKey_agreeOutside_of_running hrun (s.setPc_agreeOutside _)
  | ldVxK x =>
    cases hk : s.lowestKey with
    | none =>
      rw [after_of_exec (exec_ldVxK_of_none hk)]
      exact fun p _ => p.same_refl s
    | some k =>
      rw [after_of_exec (exec_ldVxK_of_some hk)]
      exact (s.setReg_agreeOutside _ _).setPc _
  | drw =>
    exact agreeOutside_mono (State.guardFootprint_agreeOutside_of_running hrun
      (((s.setFb_agreeOutside _).trans (State.setReg_agreeOutside _ regF _)).setPc _)) (by simp [writtenParts])
  | ldBVx =>
    exact State.guardFootprint_agreeOutside_of_running hrun ((s.setMem_agreeOutside _).setPc _)
  | ldMemVx =>
    exact agreeOutside_mono (State.guardFootprint_agreeOutside_of_running hrun
      (((s.setMem_agreeOutside _).trans (State.setI_agreeOutside _ _)).setPc _)) (by simp [writtenParts])
  | ldVxMem =>
    exact agreeOutside_mono (State.guardFootprint_agreeOutside_of_running hrun
      (((s.loadRegs_agreeOutside 0 _).trans (State.setI_agreeOutside _ _)).setPc _)) (by simp [writtenParts])

/-- The V column of R29. -/
theorem after_reg_of_not_writesReg {k : RegIdx} (hk : ¬writesReg i k) : (after s i).reg k = s.reg k := by
  have hframe := after_agreeOutside hrun
  cases i with
  | cls | ret | jp | call | seImm | sneImm | seReg | sneReg | ldI | jpV0 | skp | sknp | ldDtVx | ldStVx | addIVx
  | ldFVx | ldBVx | ldMemVx => exact hframe .regs (by simp [writtenParts]) k
  | ldImm | addImm | ldReg | orReg | andReg | xorReg | rnd | ldVxDt =>
    exact (s.setReg_reg _ k _).trans (if_neg hk)
  | addReg | subReg | shr | subnReg | shl =>
    obtain ⟨hx, hf⟩ := not_or.1 hk
    exact s.setResultFlag_reg_of_ne _ _ hx hf
  | ldVxK x =>
    cases hkey : s.lowestKey with
    | none => rw [after_of_exec (exec_ldVxK_of_none hkey)]
    | some key =>
      rw [after_of_exec (exec_ldVxK_of_some hkey)]
      exact (s.setReg_reg _ k _).trans (if_neg hk)
  | drw x y n =>
    obtain ⟨hbody, -⟩ := State.guardFootprint_of_running hrun
    exact (congrArg (·.reg k) hbody).trans (s.afterDraw_reg_of_ne x y n hk)
  | ldVxMem x =>
    obtain ⟨hbody, -⟩ := State.guardFootprint_of_running hrun
    exact (congrArg (·.reg k) hbody).trans ((s.afterLoad_reg x k).trans (if_neg hk))

/-- The mem column of R29. -/
theorem after_read_of_not_stored {a : Nat} (ha : ¬(s.i.toNat ≤ a ∧ a < s.i.toNat + storedBytes i)) :
    Memory.read (after s i).mem a = Memory.read s.mem a := by
  have hframe := after_agreeOutside hrun
  cases i with
  | ldBVx x =>
    obtain ⟨hbody, hfit⟩ := State.guardFootprint_of_running hrun
    have hfit := hfit.resolve_left (by decide)
    exact (congrArg (Memory.read ·.mem a) hbody).trans
      (Memory.read_writeBytes_of_not_stored (ws := decimalDigits (s.reg x)) hfit ha)
  | ldMemVx x =>
    obtain ⟨hbody, hfit⟩ := State.guardFootprint_of_running hrun
    have hfit := hfit.resolve_left x.toNat.succ_ne_zero
    rw [← s.length_regsUpTo x] at hfit
    rw [storedBytes, ← s.length_regsUpTo x] at ha
    exact (congrArg (Memory.read ·.mem a) hbody).trans (Memory.read_writeBytes_of_not_stored hfit ha)
  | cls | ret | jp | call | seImm | sneImm | seReg | sneReg | ldImm | addImm | ldReg | orReg | andReg | xorReg
  | addReg | subReg | shr | subnReg | shl | ldI | jpV0 | rnd | drw | skp | sknp | ldVxDt | ldVxK | ldDtVx | ldStVx
  | addIVx | ldFVx | ldVxMem => exact hframe .memory (by simp [writtenParts]) a

end

/-- Settles O20: one clause for each kind of column of R29. -/
theorem framesOfAllInstructions : Obligations.FramesOfAllInstructions := by
  intro i s t h _ hrun
  obtain rfl := after_of_exec h
  exact ⟨after_agreeOutside hrun, fun _ => after_reg_of_not_writesReg hrun, fun _ => after_read_of_not_stored hrun⟩

end Sys2Proof.Machine
end

section
/-! PROOFS. Which instructions read the sampled inputs (spec 10_state.md R21, R22; 92_eei_decisions.md D2, D22). -/

namespace Sys2Proof.Machine

/-- The key guard does not look at the sampled inputs. -/
theorem State.guardKey_sample (s : State) (ks : BitVec 16) (r : Byte) (x : RegIdx) (body : State) :
    (s.sample ks r).guardKey x (body.sample ks r) = (s.guardKey x body).sample ks r := by
  by_cases h : 15 < (s.reg x).toNat
  · simp only [State.guardKey, State.sample_reg, h, if_true]
    rfl
  · simp only [State.guardKey, State.sample_reg, h, if_false]

/-- An instruction that does not read the random byte, or is given the same one, and does not read the keys, or is
given the same ones, does the same. -/
theorem after_sample {s : State} {i : Instr} {ks : BitVec 16} {r : Byte}
    (hr : (∀ x nn, i ≠ .rnd x nn) ∨ r = s.rnd)
    (hks : (∀ x, i ≠ .skp x ∧ i ≠ .sknp x ∧ i ≠ .ldVxK x) ∨ ks = s.keys) :
    after (s.sample ks r) i = (after s i).sample ks r := by
  cases i with
  | rnd x nn =>
    obtain rfl := hr.resolve_left fun h => h x nn rfl
    rfl
  | skp x =>
    obtain rfl := hks.resolve_left fun h => have ⟨hskp, _⟩ := h x; hskp rfl
    exact s.guardKey_sample s.keys r x (s.skipIf (s.keyDown (s.reg x).toNat))
  | sknp x =>
    obtain rfl := hks.resolve_left fun h => have ⟨_, hsknp, _⟩ := h x; hsknp rfl
    exact s.guardKey_sample s.keys r x (s.skipIf (!s.keyDown (s.reg x).toNat))
  | ldVxK x =>
    obtain rfl := hks.resolve_left fun h => have ⟨_, _, hldVxK⟩ := h x; hldVxK rfl
    have hsame : (s.sample s.keys r).lowestKey = s.lowestKey := rfl
    cases hk : s.lowestKey with
    | none => rw [after_of_exec (exec_ldVxK_of_none (hsame.trans hk)), after_of_exec (exec_ldVxK_of_none hk)]
    | some k =>
      rw [after_of_exec (exec_ldVxK_of_some (hsame.trans hk)), after_of_exec (exec_ldVxK_of_some hk)]
      rfl
  | ret =>
    by_cases h : s.sp = 0
    · rw [after_of_exec (exec_ret_of_eq h), after_of_exec (exec_ret_of_eq (s := s.sample ks r) h)]
      rfl
    · rw [after_of_exec (exec_ret_of_ne h), after_of_exec (exec_ret_of_ne (s := s.sample ks r) h)]
      rfl
  | call nnn =>
    by_cases h : s.sp = 15
    · rw [after_of_exec (exec_call_of_eq nnn h), after_of_exec (exec_call_of_eq (s := s.sample ks r) nnn h)]
      rfl
    · rw [after_of_exec (exec_call_of_ne nnn h), after_of_exec (exec_call_of_ne (s := s.sample ks r) nnn h)]
      rfl
  | drw x y n => exact s.guardFootprint_sample ks r n.toNat (s.afterDraw x y n)
  | ldBVx x => exact s.guardFootprint_sample ks r 3 (s.afterDigits x)
  | ldMemVx x => exact s.guardFootprint_sample ks r (x.toNat + 1) (s.afterStore x)
  | ldVxMem x =>
    have hbody : (s.sample ks r).afterLoad x = (s.afterLoad x).sample ks r :=
      congrArg (fun t => (t.advanceI x).advance) (s.loadRegs_sample ks r 0 _)
    exact (congrArg ((s.sample ks r).guardFootprint _) hbody).trans (s.guardFootprint_sample ks r _ _)
  | cls | jp | seImm | sneImm | seReg | sneReg | ldImm | addImm | ldReg | orReg | andReg | xorReg | addReg
  | subReg | shr | subnReg | shl | ldI | jpV0 | ldVxDt | ldDtVx | ldStVx | addIVx | ldFVx => rfl

/-- Settles O25: the keys stay as they are. -/
theorem randomByteReadByRndAlone : Obligations.RandomByteReadByRndAlone := by
  intro i s t r hi h
  rw [exec_eq_after, after_sample (.inl hi) (.inr rfl), after_of_exec h]

/-- Settles O26: the random byte stays as it is. -/
theorem keysReadByThreeAlone : Obligations.KeysReadByThreeAlone := by
  intro i s t ks hi h
  rw [exec_eq_after, after_sample (.inr rfl) (.inl hi), after_of_exec h]

end Sys2Proof.Machine
end

section
/-! PROOFS. How many cells a draw changes, and a second draw that does not collide (spec 40_display.md R71, R72; log
entry 13). -/

namespace Sys2Proof.Machine

/-! ### One cell for each 1 bit inside the grid (R72 c) -/

/-- The cell that a place of the sprite, row and column, lands on. -/
def State.spriteCell (s : State) (x y : RegIdx) (q : Nat × Nat) : Nat × Nat :=
  ((s.reg y).toNat + q.1, (s.reg x).toNat + q.2)

theorem State.spriteCell_injective (s : State) (x y : RegIdx) : Function.Injective (s.spriteCell x y) := by
  rintro ⟨r, c⟩ ⟨r', c'⟩ h
  obtain ⟨hr, hc⟩ := Prod.mk.inj h
  exact Prod.ext (Nat.add_left_cancel hr) (Nat.add_left_cancel hc)

/-- The places of the sprite whose bit is 1 and lands inside the grid. -/
def State.spritePlaces (s : State) (x y : RegIdx) (n : Nibble) : Set (Nat × Nat) :=
  {q | q.1 < n.toNat ∧ q.2 < 8 ∧ (s.reg y).toNat + q.1 ≤ 31 ∧ (s.reg x).toNat + q.2 ≤ 63 ∧
    (Memory.read s.mem (s.i.toNat + q.1)).getLsbD (7 - q.2) = true}

theorem State.afterDraw_cell_ne_iff (s : State) (x y : RegIdx) (n : Nibble) (r c : Nat) :
    (s.afterDraw x y n).cell r c ≠ s.cell r c ↔ r < 32 ∧ c < 64 ∧ spriteHits s x y n r c := by
  rw [← spriteCovers_iff_spriteHits, State.afterDraw_cell]
  cases s.cell r c <;> simp

/-- The cells a draw changes are those its 1 bits land on. -/
theorem State.changedCells_eq_image (s : State) (x y : RegIdx) (n : Nibble) :
    {p : Nat × Nat | (s.afterDraw x y n).cell p.1 p.2 ≠ s.cell p.1 p.2} =
      s.spriteCell x y '' s.spritePlaces x y n := by
  ext ⟨r, c⟩
  refine (s.afterDraw_cell_ne_iff x y n r c).trans ⟨?_, ?_⟩
  · rintro ⟨hr, hc, row, col, hrow, hcol, rfl, rfl, hbit⟩
    exact ⟨(row, col), ⟨hrow, hcol, Nat.le_of_lt_succ hr, Nat.le_of_lt_succ hc, hbit⟩, rfl⟩
  · rintro ⟨⟨row, col⟩, ⟨hrow, hcol, hr, hc, hbit⟩, hcell⟩
    obtain ⟨rfl, rfl⟩ := Prod.mk.inj hcell
    exact ⟨Nat.lt_succ_of_le hr, Nat.lt_succ_of_le hc, row, col, hrow, hcol, rfl, rfl, hbit⟩

/-- Settles O31: different places land on different cells, so there are as many of the one as of the other. -/
theorem drawChangesOneCellPerBit : Obligations.DrawChangesOneCellPerBit := by
  intro x y n s t hfit h
  obtain rfl := Host.Outcome.next.inj ((exec_drw_of_fits hfit).symm.trans h)
  calc Set.ncard {p : Nat × Nat | (s.afterDraw x y n).cell p.1 p.2 ≠ s.cell p.1 p.2}
      = Set.ncard (s.spriteCell x y '' s.spritePlaces x y n) := by rw [s.changedCells_eq_image]
    _ = Set.ncard (s.spritePlaces x y n) := Set.ncard_image_of_injective _ (s.spriteCell_injective x y)

/-! ### A draw over cells that were on (R72 a) -/

/-- A core with the one-pixel sprite 0x80 at `I`, and the cell on at which V[0] and V[1] draw it. -/
def State.litCorner : State :=
  ((State.reset.setI 0x300).setMem [(0x300, 0x80)]).setFb (Frame.clear.flip 0 0)

theorem State.litCorner_hits : spriteHits State.litCorner 0 1 1 0 0 :=
  ⟨0, 0, by decide, by decide, rfl, rfl, by decide⟩

/-- The first draw turns the cell off, so the second collides with nothing. -/
theorem State.litCorner_second_draw :
    ((State.litCorner.afterDraw 0 1 1).afterDraw 0 1 1).reg 0xF = 0x00 := by decide

/-- Refutes O30: on `litCorner` the sprite's 1 lands inside the grid, but the second draw leaves VF = 0. -/
theorem not_secondDrawFlagAsWorded : ¬Obligations.SecondDrawFlagAsWorded := by
  intro h
  have hfit : (1 : Nibble) = 0 ∨ State.litCorner.i.toNat + (1 : Nibble).toNat - 1 ≤ 0xFFF := by decide
  have hworded := h 0 1 1 State.litCorner _ _ (by decide) (by decide) hfit (exec_drw_of_fits hfit)
    (exec_drw_of_fits hfit)
  have hone := hworded.2 ⟨0, 0, by decide, by decide, State.litCorner_hits⟩
  rw [State.litCorner_second_draw] at hone
  exact absurd hone (by decide)

end Sys2Proof.Machine
end

section
/-! PROOFS. The bitwise operations, and the five instructions that leave a flag in VF (spec 42_register_alu.md R89 to
R98; 92_eei_decisions.md D14 to D18). -/

namespace Sys2Proof.Machine

/-! ### Bitwise (R89 to R91) -/

/-- Settles O43: the byte written is the operation on the two bytes, bit by bit. -/
theorem bitwiseOperations : Obligations.BitwiseOperations := by
  refine ⟨encodedAs_formatXY (mk := .orReg) 0x8 0x1 rfl fun _ _ => rfl,
    encodedAs_formatXY (mk := .andReg) 0x8 0x2 rfl fun _ _ => rfl,
    encodedAs_formatXY (mk := .xorReg) 0x8 0x3 rfl fun _ _ => rfl, fun x y s => ⟨?_, ?_, ?_⟩⟩
  · exact exec_of_setReg (fun w => ∀ b, w.getLsbD b = ((s.reg x).getLsbD b || (s.reg y).getLsbD b)) rfl
      fun _ => BitVec.getLsbD_or
  · exact exec_of_setReg (fun w => ∀ b, w.getLsbD b = ((s.reg x).getLsbD b && (s.reg y).getLsbD b)) rfl
      fun _ => BitVec.getLsbD_and
  · exact exec_of_setReg (fun w => ∀ b, w.getLsbD b = ((s.reg x).getLsbD b ^^ (s.reg y).getLsbD b)) rfl
      fun _ => BitVec.getLsbD_xor

/-! ### The result, then the flag (R98) -/

theorem flagByte_decide (c : Prop) [Decidable c] : flagByte (decide c) = if c then 0x01 else 0x00 := by
  by_cases h : c <;> simp [flagByte, h]

/-- An instruction that writes `result` to V[x], then the flag of `c` to VF, and goes on, where `p` is what is said
of the result. -/
theorem exec_of_setResultFlag {i : Instr} {s : State} {x : RegIdx} {result : Byte} {flag : Bool} (p : Byte → Prop)
    {c : Prop} [Decidable c] (hexec : exec i s = .next (s.setResultFlag x result flag).advance) (hp : p result)
    (hflag : flag = decide c) :
    ∃ t, exec i s = .next t ∧ (x ≠ 0xF → p (t.reg x)) ∧ t.reg 0xF = (if c then 0x01 else 0x00) ∧
      t.pc = s.pc + 2 ∧ (∀ k, k ≠ x → k ≠ 0xF → t.reg k = s.reg k) ∧ agreeOutside [.regs, .pc] s t := by
  refine ⟨_, hexec, fun hx => ?_, ?_, rfl, fun k => s.setResultFlag_reg_of_ne result flag,
    (s.setResultFlag_agreeOutside x result flag).trans (State.setPc_agreeOutside _ _)⟩
  · have hreg : ((s.setResultFlag x result flag).advance).reg x = result :=
      (State.setReg_reg _ regF x _).trans ((if_neg hx).trans (s.setReg_reg_self x result))
    exact (congrArg p hreg).mpr hp
  · rw [← flagByte_decide c, ← hflag]
    exact State.setReg_reg_self _ regF _

/-- Settles O44: the low byte of the wide sum, and its bit 8. -/
theorem addWithCarryOut : Obligations.AddWithCarryOut :=
  ⟨encodedAs_formatXY (mk := .addReg) 0x8 0x4 rfl fun _ _ => rfl, fun x y s =>
    exec_of_setResultFlag (BitVec.toNat · = ((s.reg x).toNat + (s.reg y).toNat) % 256) rfl (aluAdd_result _ _)
      (aluAdd_bit8 _ _)⟩

/-- The difference modulo 256, as an integer. -/
theorem aluSub_result_int (a b : Byte) :
    ((aluResult (aluSub a b)).toNat : Int) = ((a.toNat : Int) - b.toNat) % 256 := by
  have ha := a.isLt
  have hb := b.isLt
  rw [aluSub_result]
  omega

/-- Settles O45: the low byte of the wide difference, and its bit 8 negated. -/
theorem subtractWithNoBorrowFlag : Obligations.SubtractWithNoBorrowFlag :=
  ⟨encodedAs_formatXY (mk := .subReg) 0x8 0x5 rfl fun _ _ => rfl,
    encodedAs_formatXY (mk := .subnReg) 0x8 0x7 rfl fun _ _ => rfl, fun x y s =>
    ⟨exec_of_setResultFlag (fun w => (w.toNat : Int) = ((s.reg x).toNat - (s.reg y).toNat : Int) % 256) rfl
        (aluSub_result_int _ _) (aluSub_bit8 _ _),
      exec_of_setResultFlag (fun w => (w.toNat : Int) = ((s.reg y).toNat - (s.reg x).toNat : Int) % 256) rfl
        (aluSub_result_int _ _) (aluSub_bit8 _ _)⟩⟩

/-- Settles O46: the shifted byte, and the bit it lost. -/
theorem shiftByOne : Obligations.ShiftByOne :=
  ⟨encodedAs_formatXY (mk := .shr) 0x8 0x6 rfl fun _ _ => rfl,
    encodedAs_formatXY (mk := .shl) 0x8 0xE rfl fun _ _ => rfl, fun _ y s =>
    ⟨exec_of_setResultFlag (BitVec.toNat · = (s.reg y).toNat / 2) rfl (aluShr_result _) Bool.decide_eq_true.symm,
      exec_of_setResultFlag (BitVec.toNat · = (s.reg y).toNat * 2 % 256) rfl (aluShl_result _)
        ((aluShl_bit8 _).trans Bool.decide_eq_true.symm)⟩⟩

/-- With `x = F` the flag overwrites the result. -/
theorem exec_of_setResultFlag_regF {i : Instr} {s : State} {result : Byte} {flag : Bool}
    (hexec : exec i s = .next (s.setResultFlag 0xF result flag).advance) :
    ∃ t, exec i s = .next t ∧ (t.reg 0xF = 0x00 ∨ t.reg 0xF = 0x01) ∧ (∀ k, k ≠ 0xF → t.reg k = s.reg k) ∧
      t.pc = s.pc + 2 ∧ agreeOutside [.regs, .pc] s t := by
  obtain ⟨t, ht, -, hvf, hpc, hregs, hframe⟩ :=
    exec_of_setResultFlag (fun _ => True) hexec trivial Bool.decide_eq_true.symm
  refine ⟨t, ht, ?_, fun k hk => hregs k hk hk, hpc, hframe⟩
  split at hvf
  · exact .inr hvf
  · exact .inl hvf

/-- Settles O47: each of the five writes a result, then a flag. -/
theorem flagIsWrittenLast : Obligations.FlagIsWrittenLast := by
  intro y s
  simp only [List.forall_mem_cons]
  exact ⟨exec_of_setResultFlag_regF rfl, exec_of_setResultFlag_regF rfl, exec_of_setResultFlag_regF rfl,
    exec_of_setResultFlag_regF rfl, exec_of_setResultFlag_regF rfl, List.forall_mem_nil _⟩

end Sys2Proof.Machine
end

section
/-! PROOFS. Fx29 and Fx07 (spec 43_index_memory.md R102; 44_keypad_timers.md R112; 92_eei_decisions.md D20, D23). -/

namespace Sys2Proof.Machine

/-- Five times a byte fits 16 bits. -/
theorem toNat_glyphAddress (b : Byte) : (glyphAddress b).toNat = b.toNat * 5 := by
  have hb := b.isLt
  rw [glyphAddress, BitVec.toNat_mul, zext8, BitVec.toNat_setWidth_of_le (by decide)]
  exact Nat.mod_eq_of_lt (by simp; omega)

/-- Settles O51: `I` is the glyph address of the whole byte. -/
theorem pointAtGlyph : Obligations.PointAtGlyph :=
  ⟨encodedAs_formatX (mk := .ldFVx) 0xF 0x29 rfl fun _ => rfl, fun _ s =>
    ⟨_, rfl, toNat_glyphAddress _, rfl, (s.setI_agreeOutside _).trans (State.setPc_agreeOutside _ _)⟩⟩

/-- Settles O57: the byte written is DT. -/
theorem readDelayTimer : Obligations.ReadDelayTimer :=
  ⟨encodedAs_formatX (mk := .ldVxDt) 0xF 0x07 rfl fun _ => rfl, fun _ s => exec_of_setReg (· = s.dt) rfl rfl⟩

end Sys2Proof.Machine
end
